-- ==== Sys2Proof/Word.lean ====
section
/-! DEFINITION. The word types of the block: a byte is 8 bits, an `x` field 16 bits, a command or a response 32 bits
(00_scope.md R16, 30_encoding.md R70, R73). All numbers are unsigned (R16). -/

namespace Sys2Proof

/-- A byte (00_scope.md R16). -/
abbrev Byte := BitVec 8

/-- A 16-bit field: `cmd[15:0]` or `resp[15:0]` (30_encoding.md R70, R73). -/
abbrev Half := BitVec 16

/-- A command word or a response word (30_encoding.md R70, R73). -/
abbrev Word := BitVec 32

end Sys2Proof
end

