-- ==== Sys2Proof/Syntax.lean ====
section
/-! DEFINITION. The syntax of the block: its three ports (60_exceptions.md R140, R141) and its eighteen commands, one
constructor per row of spec/opcode_table.json (30_encoding.md R74). An operand has the width of its field (R72), so an
instruction is exactly what a word can say; whether an operand names something that exists is WellFormed.lean's matter. -/

namespace Sys2Proof

/-- The three command ports, one per agent (60_exceptions.md R140, 30_encoding.md R80). -/
inductive Port where
  /-- PU, fed by the UART byte-received handler. -/
  | pu
  /-- PR, fed by the radio receive-event handler. -/
  | pr
  /-- PF, fed by the foreground loop. -/
  | pf
  deriving DecidableEq, Repr

/-- The eighteen commands (00_scope.md R5, 30_encoding.md R74). -/
inductive Instr where
  /-- `SLI.INIT` (40_serial_line_intake.md R90). -/
  | sliInit
  /-- `SLI.BYTE b` (R91 to R94). -/
  | sliByte (b : Byte)
  /-- `SLI.HAS` (R96). -/
  | sliHas
  /-- `SLI.TAKE` (R97). -/
  | sliTake
  /-- `SLI.READ k, off` (R98). -/
  | sliRead (k : Byte) (off : Half)
  /-- `SLI.RESET` (R99). -/
  | sliReset
  /-- `FP.INIT` (41_frame_pool.md R110). -/
  | fpInit
  /-- `FP.RESERVE` (R111). -/
  | fpReserve
  /-- `FP.FILLB v, off` (R112). -/
  | fpFillb (v : Byte) (off : Half)
  /-- `FP.SETLEN len` (R113). -/
  | fpSetlen (len : Half)
  /-- `FP.COMMIT f` (R114). -/
  | fpCommit (f : Bool)
  /-- `FP.HASDATA` (R115). -/
  | fpHasdata
  /-- `FP.PEEK` (R116). -/
  | fpPeek
  /-- `FP.RDLEN s` (R117). -/
  | fpRdlen (s : Byte)
  /-- `FP.READB s, off` (R118). -/
  | fpReadb (s : Byte) (off : Half)
  /-- `FP.RELEASE` (R119). -/
  | fpRelease
  /-- `FP.OVF` (R120). -/
  | fpOvf
  /-- `FP.RESET` (R121). -/
  | fpReset
  deriving DecidableEq, Repr

end Sys2Proof
end

