-- ==== Sys2Proof/Decode.lean ====
section
/-! DEFINITION. Decoding and encoding (30_encoding.md R70 to R77): the five formats, the decoder (total, refusing by name),
the encoder, the permission column, and the opcode table of R74 as its own text, against which the decoder is held. -/

namespace Sys2Proof

/-- Why a word is no command (30_encoding.md R75). All three are answered ILLEGAL_COMMAND. -/
inductive Illegal where
  /-- `op` is one of 0x16..0x1F, 0x2C..0x2F, reserved for later commands of the two units. -/
  | reservedOp
  /-- `op` is assigned to nothing and reserved for nothing. -/
  | unassignedOp
  /-- `op` is legal and a field its format says must be zero is not. -/
  | nonZeroField
  deriving DecidableEq, Repr

/-- What a word decodes to: a command, or the reason it is none. -/
inductive Decoded where
  | command (i : Instr)
  | illegal (why : Illegal)
  deriving DecidableEq, Repr

/-- `cmd[31:24]` (R70). -/
def opField (w : Word) : Byte := w.extractLsb' 24 8

/-- `cmd[23:16]` (R70). -/
def aField (w : Word) : Byte := w.extractLsb' 16 8

/-- `cmd[15:0]` (R70). -/
def xField (w : Word) : Half := w.extractLsb' 0 16

/-- Format Z: `a` and `x` must be zero (R71). -/
def formatZ (a : Byte) (x : Half) (i : Instr) : Decoded :=
  if a = 0#8 ∧ x = 0#16 then .command i else .illegal .nonZeroField

/-- Format A: `a` is the operand, `x` must be zero (R71). -/
def formatA (a : Byte) (x : Half) (mk : Byte → Instr) : Decoded :=
  if x = 0#16 then .command (mk a) else .illegal .nonZeroField

/-- Format F: `a[0]` is the flag, `a[7:1]` and `x` must be zero (R71). -/
def formatF (a : Byte) (x : Half) (mk : Bool → Instr) : Decoded :=
  if a.extractLsb' 1 7 = 0#7 ∧ x = 0#16 then .command (mk (a.getLsbD 0)) else .illegal .nonZeroField

/-- Format X: `a` must be zero, `x` is the operand (R71). -/
def formatX (a : Byte) (x : Half) (mk : Half → Instr) : Decoded :=
  if a = 0#8 then .command (mk x) else .illegal .nonZeroField

/-- Format AX: both fields are operands (R71). -/
def formatAX (a : Byte) (x : Half) (mk : Byte → Half → Instr) : Decoded :=
  .command (mk a x)

/-- The opcode map of R74 on the three fields; any other `op` is illegal (R75). -/
def decodeFields (op a : Byte) (x : Half) : Decoded :=
  match op.toNat with
  | 0x10 => formatZ a x .sliInit
  | 0x11 => formatA a x .sliByte
  | 0x12 => formatZ a x .sliHas
  | 0x13 => formatZ a x .sliTake
  | 0x14 => formatAX a x .sliRead
  | 0x15 => formatZ a x .sliReset
  | 0x20 => formatZ a x .fpInit
  | 0x21 => formatZ a x .fpReserve
  | 0x22 => formatAX a x .fpFillb
  | 0x23 => formatX a x .fpSetlen
  | 0x24 => formatF a x .fpCommit
  | 0x25 => formatZ a x .fpHasdata
  | 0x26 => formatZ a x .fpPeek
  | 0x27 => formatA a x .fpRdlen
  | 0x28 => formatAX a x .fpReadb
  | 0x29 => formatZ a x .fpRelease
  | 0x2A => formatZ a x .fpOvf
  | 0x2B => formatZ a x .fpReset
  | n => if (0x16 ≤ n ∧ n ≤ 0x1F) ∨ (0x2C ≤ n ∧ n ≤ 0x2F) then .illegal .reservedOp else .illegal .unassignedOp

/-- The decoder, total on any 32-bit word (R77). -/
def decode (w : Word) : Decoded := decodeFields (opField w) (aField w) (xField w)

/-- The words of R74 and R71: `{op, a, x}`. -/
def packFields (op a : Byte) (x : Half) : Word := op ++ a ++ x

/-- The encoder: the word of a command (R70, R71, R74). -/
def encode : Instr → Word
  | .sliInit => packFields 0x10#8 0#8 0#16
  | .sliByte b => packFields 0x11#8 b 0#16
  | .sliHas => packFields 0x12#8 0#8 0#16
  | .sliTake => packFields 0x13#8 0#8 0#16
  | .sliRead k off => packFields 0x14#8 k off
  | .sliReset => packFields 0x15#8 0#8 0#16
  | .fpInit => packFields 0x20#8 0#8 0#16
  | .fpReserve => packFields 0x21#8 0#8 0#16
  | .fpFillb v off => packFields 0x22#8 v off
  | .fpSetlen len => packFields 0x23#8 0#8 len
  | .fpCommit f => packFields 0x24#8 (if f then 1#8 else 0#8) 0#16
  | .fpHasdata => packFields 0x25#8 0#8 0#16
  | .fpPeek => packFields 0x26#8 0#8 0#16
  | .fpRdlen s => packFields 0x27#8 s 0#16
  | .fpReadb s off => packFields 0x28#8 s off
  | .fpRelease => packFields 0x29#8 0#8 0#16
  | .fpOvf => packFields 0x2A#8 0#8 0#16
  | .fpReset => packFields 0x2B#8 0#8 0#16

/-- The only port a command is permitted on (60_exceptions.md R141, the port column of R74). -/
def Instr.port : Instr → Port
  | .sliByte _ => .pu
  | .fpReserve => .pr
  | .fpFillb _ _ => .pr
  | .fpSetlen _ => .pr
  | .fpCommit _ => .pr
  | .sliInit => .pf
  | .sliHas => .pf
  | .sliTake => .pf
  | .sliRead _ _ => .pf
  | .sliReset => .pf
  | .fpInit => .pf
  | .fpHasdata => .pf
  | .fpPeek => .pf
  | .fpRdlen _ => .pf
  | .fpReadb _ _ => .pf
  | .fpRelease => .pf
  | .fpOvf => .pf
  | .fpReset => .pf

/-- The mnemonic of R74. -/
def Instr.mnemonic : Instr → String
  | .sliInit => "SLI.INIT"
  | .sliByte _ => "SLI.BYTE"
  | .sliHas => "SLI.HAS"
  | .sliTake => "SLI.TAKE"
  | .sliRead _ _ => "SLI.READ"
  | .sliReset => "SLI.RESET"
  | .fpInit => "FP.INIT"
  | .fpReserve => "FP.RESERVE"
  | .fpFillb _ _ => "FP.FILLB"
  | .fpSetlen _ => "FP.SETLEN"
  | .fpCommit _ => "FP.COMMIT"
  | .fpHasdata => "FP.HASDATA"
  | .fpPeek => "FP.PEEK"
  | .fpRdlen _ => "FP.RDLEN"
  | .fpReadb _ _ => "FP.READB"
  | .fpRelease => "FP.RELEASE"
  | .fpOvf => "FP.OVF"
  | .fpReset => "FP.RESET"

/-- The commands of the unit SerialLineIntake; the others are FramePool's (R2, R74: the high nibble of `op`). -/
def Instr.isSli : Instr → Bool
  | .sliInit => true
  | .sliByte _ => true
  | .sliHas => true
  | .sliTake => true
  | .sliRead _ _ => true
  | .sliReset => true
  | .fpInit => false
  | .fpReserve => false
  | .fpFillb _ _ => false
  | .fpSetlen _ => false
  | .fpCommit _ => false
  | .fpHasdata => false
  | .fpPeek => false
  | .fpRdlen _ => false
  | .fpReadb _ _ => false
  | .fpRelease => false
  | .fpOvf => false
  | .fpReset => false

/-- One row of the opcode table of R74: a word `w` is its command when `w &&& mask = pattern`. -/
structure Row where
  mnemonic : String
  pattern : Word
  mask : Word
  port : Port
  deriving DecidableEq, Repr

/-- The opcode table of R74, written out from its own text: the decoder does not use it, so that the two can be compared. -/
def opcodeTable : List Row :=
  [ ⟨"SLI.INIT", 0x10000000#32, 0xFFFFFFFF#32, .pf⟩,
    ⟨"SLI.BYTE", 0x11000000#32, 0xFF00FFFF#32, .pu⟩,
    ⟨"SLI.HAS", 0x12000000#32, 0xFFFFFFFF#32, .pf⟩,
    ⟨"SLI.TAKE", 0x13000000#32, 0xFFFFFFFF#32, .pf⟩,
    ⟨"SLI.READ", 0x14000000#32, 0xFF000000#32, .pf⟩,
    ⟨"SLI.RESET", 0x15000000#32, 0xFFFFFFFF#32, .pf⟩ ] ++
  [ ⟨"FP.INIT", 0x20000000#32, 0xFFFFFFFF#32, .pf⟩,
    ⟨"FP.RESERVE", 0x21000000#32, 0xFFFFFFFF#32, .pr⟩,
    ⟨"FP.FILLB", 0x22000000#32, 0xFF000000#32, .pr⟩,
    ⟨"FP.SETLEN", 0x23000000#32, 0xFFFF0000#32, .pr⟩,
    ⟨"FP.COMMIT", 0x24000000#32, 0xFFFEFFFF#32, .pr⟩,
    ⟨"FP.HASDATA", 0x25000000#32, 0xFFFFFFFF#32, .pf⟩ ] ++
  [ ⟨"FP.PEEK", 0x26000000#32, 0xFFFFFFFF#32, .pf⟩,
    ⟨"FP.RDLEN", 0x27000000#32, 0xFF00FFFF#32, .pf⟩,
    ⟨"FP.READB", 0x28000000#32, 0xFF000000#32, .pf⟩,
    ⟨"FP.RELEASE", 0x29000000#32, 0xFFFFFFFF#32, .pf⟩,
    ⟨"FP.OVF", 0x2A000000#32, 0xFFFFFFFF#32, .pf⟩,
    ⟨"FP.RESET", 0x2B000000#32, 0xFFFFFFFF#32, .pf⟩ ]

/-- The command the decoder reads, if any. -/
def Decoded.toOption : Decoded → Option Instr
  | .command i => some i
  | .illegal _ => none

/-- The 32-bit command word of an instruction of `nbits` bits: bit 0 of the table's numbering is bit 0 of the word (R70),
and every bit from `nbits` up is zero. -/
def tableWord (nbits w : Nat) : Word := BitVec.ofNat 32 (w % 2 ^ nbits)

/-- The instruction the decoder reads from an opcode-table word. -/
def decodeTableWord (nbits w : Nat) : Option Instr := (decode (tableWord nbits w)).toOption

end Sys2Proof
end

