-- ==== Sys2Proof/Config.lean ====
section
/-! DEFINITION. What an implementation fixes (the parameters of 00_scope.md R10 to R15), the three constants of R13, and the
free values the spec leaves open (93_implementation_defined.md U1, U2). A free value has no body: no proof can see what it is. -/

namespace Sys2Proof

/-- The parameters of the machine, fixed for a whole run (00_scope.md R10 to R15, section 3). They are an argument of the
machine: `State` carries them, no command changes them (R15), and a statement about every state covers every configuration. -/
structure Config where
  /-- `C`, the capacity in bytes of each LineBuffer (R10). -/
  capacity : Nat
  /-- `N`, the number of FrameRecord slots (R11). -/
  slots : Nat
  /-- `P`, the spec's `FRAME_PAYLOAD_BYTES` (R14). -/
  payloadBytes : Nat
  /-- `LW`, the spec's `FRAME_LEN_BITS` (R14). -/
  lenBits : Nat
  /-- `TERM`, the terminator byte set, as the list of its members: only membership is ever asked (R12, R95). -/
  terminators : List Byte
  deriving DecidableEq, Repr

/-- DESIGN CHOICE (log entry 3): the configuration `State.reset` carries, the values the vectors of 95_test_vectors.md use
(C = 10, N = 4, P = 4, LW = 8) and the default terminator set of R12. -/
def Config.testVectors : Config :=
  { capacity := 10, slots := 4, payloadBytes := 4, lenBits := 8, terminators := [0x0A#8, 0x0D#8] }

/-- `TRAILER`: how many zero bytes follow the terminator (R13). -/
def Config.trailer : Nat := 2

/-- `ZERO`: the value of each trailer byte (R13). -/
def Config.zero : Byte := 0x00#8

/-- `OVERLONG_MARK`: the length value that signals an overlong message (R13). -/
def Config.overlongMark : Nat := 1

/-! Power-on values: any value per element (93_implementation_defined.md U1; log entry 1). -/

/-- FREE VALUE: `active_index` after power-on (`true` stands for 1). -/
opaque Config.powerOnActive : Bool
/-- FREE VALUE: `write_offset` after power-on, cut to its range in `State.reset`. -/
opaque Config.powerOnOffset : Nat
/-- FREE VALUE: `completed_length[0]` after power-on, cut to its range in `State.reset`. -/
opaque Config.powerOnLength0 : Nat
/-- FREE VALUE: `completed_length[1]` after power-on, cut to its range in `State.reset`. -/
opaque Config.powerOnLength1 : Nat
/-- FREE VALUE: `message_ready` after power-on. -/
opaque Config.powerOnReady : Bool
/-- FREE VALUE: `head` after power-on, cut to its range in `State.reset`. -/
opaque Config.powerOnHead : Nat
/-- FREE VALUE: `tail` after power-on, cut to its range in `State.reset`. -/
opaque Config.powerOnTail : Nat
/-- FREE VALUE: `free_count` after power-on, cut to its range in `State.reset`. -/
opaque Config.powerOnFree : Nat
/-- FREE VALUE: `used_count` after power-on, cut to its range in `State.reset`. -/
opaque Config.powerOnUsed : Nat
/-- FREE VALUE: `overflow` after power-on. -/
opaque Config.powerOnOverflow : Bool

/-! Memory no command has written since power-on: any value when read (U2; log entry 2). Each is keyed by the location, so
that repeating a read gives the same answer (20_memory.md R56). -/

/-- FREE VALUE: the byte `LB[k][off]` that no command has written (arguments `k`, `off`). -/
opaque Config.unwrittenLB : Nat → Nat → Byte
/-- FREE VALUE: the byte `FS[s].payload[off]` that no command has written (arguments `s`, `off`). -/
opaque Config.unwrittenPayload : Nat → Nat → Byte
/-- FREE VALUE: the field `FS[s].length` that no command has written (argument `s`), cut to LW bits where it is read. -/
opaque Config.unwrittenLength : Nat → Nat
/-- FREE VALUE: the field `FS[s].crc_ok` that no command has written (argument `s`). -/
opaque Config.unwrittenCrc : Nat → Bool

end Sys2Proof
end

