-- ==== Sys2Proof/Machine/State.lean ====
section
/-! DEFINITION. The state of the machine: the two units of 10_state.md R20 and R29, which share nothing (00_scope.md R2), and
around them what a run needs: the parameters, the commands still to arrive, the answers and events given so far, and whether a
radio handler invocation is open. Plain data throughout. -/

namespace Sys2Proof.Machine

/-- The two LineBuffers, and so the values of `active_index` (10_state.md R20, R25). -/
inductive Buf where
  /-- `LB[0]`. -/
  | b0
  /-- `LB[1]`. -/
  | b1
  deriving DecidableEq, Repr

/-- The state of SerialLineIntake (10_state.md R20): exactly these elements. -/
structure Sli where
  /-- `active_index` (R21). -/
  activeIndex : Buf
  /-- `write_offset` (R22). -/
  writeOffset : Nat
  /-- `completed_length[0]` (R23). -/
  completedLength0 : Nat
  /-- `completed_length[1]` (R23). -/
  completedLength1 : Nat
  /-- `message_ready` (R24). -/
  messageReady : Bool
  /-- The space LB (R25, 20_memory.md R50): the bytes written since power-on, each at the address `lbAddr` gives it. -/
  lb : List Host.Cell
  deriving DecidableEq, Repr

/-- The state of FramePool (10_state.md R29): exactly these elements. -/
structure Fp where
  /-- `head` (R30). -/
  head : Nat
  /-- `tail` (R31). -/
  tail : Nat
  /-- `free_count` (R32). -/
  freeCount : Nat
  /-- `used_count` (R32). -/
  usedCount : Nat
  /-- `overflow` (R33). -/
  overflow : Bool
  /-- The payload bytes of the space FS (R28, 20_memory.md R50) written since power-on, each at the address `payloadAddr`
  gives it. -/
  payload : List Host.Cell
  /-- `FS[s].length`, by slot: the fields written since power-on (R28). -/
  length : List (Nat × Half)
  /-- `FS[s].crc_ok`, by slot: the fields written since power-on (R28). -/
  crcOk : List (Nat × Bool)
  deriving DecidableEq, Repr

/-- The output events toward external collaborators (00_scope.md R16, 40_serial_line_intake.md R99). -/
inductive Event where
  /-- `FlushRx`: the UART discards bytes received but not yet delivered. -/
  | flushRx
  /-- `EnableRxIrq`: byte-received interrupts are enabled from here on. -/
  | enableRxIrq
  deriving DecidableEq, Repr

/-- One input of the machine, in the total order of 20_memory.md R58. -/
inductive Input where
  /-- A command word arrives on a port (30_encoding.md R80). -/
  | command (p : Port) (w : Word)
  /-- The radio handler returns (60_exceptions.md R141: a mode is left when the handler returns). It matters only after an
  invocation that ended without FP.COMMIT (70_reset_and_hazards.md R180); DESIGN CHOICE, log entry 5. -/
  | radioReturn
  deriving DecidableEq, Repr

/-- The state of the machine. -/
structure State where
  /-- The parameters, fixed for a whole run (00_scope.md R10 to R15). -/
  cfg : Config
  /-- The unit SerialLineIntake (R20). -/
  sli : Sli
  /-- The unit FramePool (R29). -/
  fp : Fp
  /-- The port the command in service arrived on: its mode (60_exceptions.md R140). The model's own field. -/
  port : Port
  /-- What is still to arrive (10_state.md R38, D24). The model's own field. -/
  inbox : List Input
  /-- The response words given so far, each with its port, oldest first (30_encoding.md R73). The model's own field. -/
  answers : List (Port × Word)
  /-- The events emitted so far, oldest first (40_serial_line_intake.md R99). The model's own field. -/
  events : List Event
  /-- A radio handler invocation is open (60_exceptions.md R144; platform state, 10_state.md R40 b). The model's own field. -/
  radioOpen : Bool
  deriving DecidableEq, Repr

/-- The causes of a FAULT response (60_exceptions.md R150). A FAULT is a fault outcome of the step (R151, 00_scope.md R17). All
are SAFE: the spec answers FAULT in exactly these cases, and the model stops there. -/
inductive Fault where
  /-- 0x01 ILLEGAL_COMMAND, raised by `step`: the word matches no row of the opcode table. Safe. -/
  | illegalCommand
  /-- 0x02 WRONG_PORT, raised by every command on a port it is not permitted on. Safe. -/
  | wrongPort
  /-- 0x03 BAD_INDEX, raised by SLI.READ, FP.FILLB, FP.SETLEN, FP.RDLEN, FP.READB on an operand out of range, and by FP.FILLB,
  FP.SETLEN, FP.COMMIT when `head` is no slot (20_memory.md R52), which no run from reset reaches. Safe. -/
  | badIndex
  /-- 0x04 PEEK_EMPTY, raised by FP.PEEK on an empty pool. Safe. -/
  | peekEmpty
  /-- 0x05 RELEASE_EMPTY, raised by FP.RELEASE on an empty pool. Safe. -/
  | releaseEmpty
  /-- 0x06 NO_FREE_SLOT, raised by FP.FILLB, FP.SETLEN, FP.COMMIT with no free slot. Safe. -/
  | noFreeSlot
  deriving DecidableEq, Repr

/-- Why the model gives a step no meaning. -/
inductive Refusal where
  /-- An instruction without a meaning: raised by no arm of this model. Safe. -/
  | notModelled (mnemonic : String)
  /-- The configuration is out of range (93_implementation_defined.md V8: refuse); raised by `step` alone. Safe. -/
  | badConfiguration
  /-- The next input is a PF command inside an open radio handler invocation, which is no admissible schedule and has no move
  (60_exceptions.md R144, R159, 70_reset_and_hazards.md R187); raised by `step` alone. Safe. -/
  | insideRadioHandler
  deriving DecidableEq, Repr

/-- What the next input asks for (Ops.lean's `fetch`). -/
inductive Pickup where
  /-- No input is left: the run has ended (70_reset_and_hazards.md R188). -/
  | idle
  /-- Nothing to execute; the state to go on with. -/
  | moved (t : State)
  /-- A command word, and the state in which it is served. -/
  | command (w : Word) (t : State)
  /-- There is no move. -/
  | noMove (r : Refusal)
  deriving DecidableEq, Repr

/-- The state after power-on (10_state.md R41, 70_reset_and_hazards.md R170) in a given configuration: every element of both
units holds a free value, within the range R20 and R29 state for it (93_implementation_defined.md U1; log entry 1); no byte or
field of LB and FS has been written (U2; log entry 2); nothing has arrived and nothing has been answered. -/
def State.powerOn (cfg : Config) : State :=
  { cfg := cfg
    sli :=
      { activeIndex := if Config.powerOnActive then .b1 else .b0
        writeOffset := Config.powerOnOffset % (cfg.capacity - 1)
        completedLength0 := Config.powerOnLength0 % (cfg.capacity + 1)
        completedLength1 := Config.powerOnLength1 % (cfg.capacity + 1)
        messageReady := Config.powerOnReady
        lb := [] }
    fp :=
      { head := Config.powerOnHead % cfg.slots
        tail := Config.powerOnTail % cfg.slots
        freeCount := Config.powerOnFree % (cfg.slots + 1)
        usedCount := Config.powerOnUsed % (cfg.slots + 1)
        overflow := Config.powerOnOverflow
        payload := []
        length := []
        crcOk := [] }
    port := .pf
    inbox := []
    answers := []
    events := []
    radioOpen := false }

/-- The machine right after reset: power-on with the parameters of the test vectors (log entry 3). -/
def State.reset : State := State.powerOn Config.testVectors

end Sys2Proof.Machine
end

