-- ==== Sys2Proof/Machine/Flags.lean ====
section
/-! DEFINITION. The block's two flags and the only ways they change (10_state.md R24, R33, R39). -/

namespace Sys2Proof.Machine

/-- `message_ready <- b` (10_state.md R24). -/
def State.setReady (b : Bool) (s : State) : State := { s with sli := { s.sli with messageReady := b } }

/-- `overflow <- b` (10_state.md R33). -/
def State.setOverflow (b : Bool) (s : State) : State := { s with fp := { s.fp with overflow := b } }

end Sys2Proof.Machine
end

