-- ==== Sys2Proof/Machine/Operands.lean ====
section
/-! DEFINITION. Operand assembly and range checks (30_encoding.md R72, 20_memory.md R51, R52), and the result fields of a
response (R73, R81). Every operand is its field's bits taken as an unsigned number. -/

namespace Sys2Proof.Machine

/-- The buffer index as a number, 0 or 1 (10_state.md R20). -/
def Buf.index : Buf → Nat
  | .b0 => 0
  | .b1 => 1

/-- `1 - k`: the other buffer (40_serial_line_intake.md R95). -/
def Buf.other : Buf → Buf
  | .b0 => .b1
  | .b1 => .b0

/-- The buffer an operand `k` names; none when `k > 1` (20_memory.md R51). -/
def bufferOf (k : Byte) : Option Buf :=
  if k = 0#8 then some .b0 else if k = 1#8 then some .b1 else none

/-- `off < C` (R51). -/
def inBuffer (cfg : Config) (off : Half) : Bool := decide (off.toNat < cfg.capacity)

/-- `s < N` (R52). -/
def inPool (cfg : Config) (slot : Nat) : Bool := decide (slot < cfg.slots)

/-- `off < P` (R52). -/
def inPayload (cfg : Config) (off : Half) : Bool := decide (off.toNat < cfg.payloadBytes)

/-- `len < 2^LW` (41_frame_pool.md R113). -/
def fitsLength (cfg : Config) (len : Half) : Bool := decide (len.toNat < 2 ^ cfg.lenBits)

/-- `zext_8` of a number below 256, the `ra` field (R73). -/
def zext8 (n : Nat) : Byte := BitVec.ofNat 8 n

/-- `zext_16` of a number below 65536, the `rx` field (R73). -/
def zext16 (n : Nat) : Half := BitVec.ofNat 16 n

/-- `zext_8` of a flag (R81: `ra[0]`). -/
def flag8 (b : Bool) : Byte := if b then 1#8 else 0#8

end Sys2Proof.Machine
end

