-- ==== Sys2Proof/WellFormed.lean ====
section
/-! DEFINITION. The checks on a configuration (00_scope.md R10, R11, R14) and on a command's operands in a configuration
(30_encoding.md R72, 20_memory.md R51, R52). Neither is part of decoding: a word with an operand out of range decodes (R72). -/

namespace Sys2Proof

/-- The configuration is in range: `3 <= C <= 65535`, `1 <= N <= 256`, `1 <= P <= 65535`, `1 <= LW <= 16` (00_scope.md R10,
R11, R14). A model refuses any other (93_implementation_defined.md V8). -/
abbrev Config.WellFormed (cfg : Config) : Prop :=
  3 ≤ cfg.capacity ∧ cfg.capacity ≤ 65535 ∧ 1 ≤ cfg.slots ∧ cfg.slots ≤ 256 ∧
  1 ≤ cfg.payloadBytes ∧ cfg.payloadBytes ≤ 65535 ∧ 1 ≤ cfg.lenBits ∧ cfg.lenBits ≤ 16

/-- The operands name things that exist in the configuration: `k <= 1` and `off < C` for `SLI.READ`, `off < P` for `FP.FILLB`,
`len < 2^LW` for `FP.SETLEN`, `s < N` for `FP.RDLEN`, `s < N` and `off < P` for `FP.READB`; the other commands have no operand
that can be out of range (30_encoding.md R72, 60_exceptions.md R150). -/
def Instr.WellFormed (cfg : Config) : Instr → Bool
  | .sliRead k off => decide (k.toNat ≤ 1) && decide (off.toNat < cfg.capacity)
  | .fpFillb _ off => decide (off.toNat < cfg.payloadBytes)
  | .fpSetlen len => decide (len.toNat < 2 ^ cfg.lenBits)
  | .fpRdlen s => decide (s.toNat < cfg.slots)
  | .fpReadb s off => decide (s.toNat < cfg.slots) && decide (off.toNat < cfg.payloadBytes)
  | .sliInit => true
  | .sliByte _ => true
  | .sliHas => true
  | .sliTake => true
  | .sliReset => true
  | .fpInit => true
  | .fpReserve => true
  | .fpCommit _ => true
  | .fpHasdata => true
  | .fpPeek => true
  | .fpRelease => true
  | .fpOvf => true
  | .fpReset => true

end Sys2Proof
end

