-- ==== Sys2Proof/Machine/Ops.lean ====
section
/-! DEFINITION. The named operations over memory, registers, ports and answers: what the meanings are written with. The FAULT
response, the spec's `raise` (00_scope.md R16), is one shared operation. -/

namespace Sys2Proof.Machine

/-! ### Memory: a list of (key, value) pairs with strictly rising keys (20_memory.md R50, R53) -/

/-- The value written last at a key; none if no command has written there since power-on. -/
def Memory.read {α : Type} : List (Nat × α) → Nat → Option α
  | [], _ => none
  | (b, u) :: rest, a => if a = b then some u else Memory.read rest a

/-- `MemWrite`: keeps the keys strictly rising (00_scope.md R16). -/
def Memory.write {α : Type} : List (Nat × α) → Nat → α → List (Nat × α)
  | [], a, v => [(a, v)]
  | (b, u) :: rest, a, v =>
    if a < b then (a, v) :: (b, u) :: rest
    else if a = b then (a, v) :: rest
    else (b, u) :: Memory.write rest a v

/-- The canonical form: keys strictly rising. An unlisted key holds no value a command wrote, so no listed entry equals it. -/
def Memory.wf {α : Type} : List (Nat × α) → Bool
  | [] => true
  | [_] => true
  | (a, _) :: (b, u) :: rest => decide (a < b) && Memory.wf ((b, u) :: rest)

/-! ### The space LB (20_memory.md R50, R51) -/

/-- The address of `LB[k][off]`: `k * C + off`. -/
def lbAddr (cfg : Config) (k : Buf) (off : Nat) : Nat := k.index * cfg.capacity + off

/-- What a command wrote last at `LB[k][off]`, if any did. -/
def State.lbWritten (s : State) (k : Buf) (off : Nat) : Option Byte := Memory.read s.sli.lb (lbAddr s.cfg k off)

/-- `MemRead(LB, k, off)`; a byte never written since power-on is a free value (U2; log entry 2). -/
def State.lbRead (s : State) (k : Buf) (off : Nat) : Byte :=
  (s.lbWritten k off).getD (Config.unwrittenLB k.index off)

/-- `MemWrite(LB, k, off, v)`. -/
def State.lbWrite (s : State) (k : Buf) (off : Nat) (v : Byte) : State :=
  { s with sli := { s.sli with lb := Memory.write s.sli.lb (lbAddr s.cfg k off) v } }

/-! ### The space FS (20_memory.md R50, R52) -/

/-- The address of `FS[slot].payload[off]`: `slot * P + off`. -/
def payloadAddr (cfg : Config) (slot off : Nat) : Nat := slot * cfg.payloadBytes + off

/-- What a command wrote last at `FS[slot].payload[off]`, if any did. -/
def State.payloadWritten (s : State) (slot off : Nat) : Option Byte :=
  Memory.read s.fp.payload (payloadAddr s.cfg slot off)

/-- `MemRead(FS, slot, off)`; a byte never written since power-on is a free value (U2; log entry 2). -/
def State.payloadRead (s : State) (slot off : Nat) : Byte :=
  (s.payloadWritten slot off).getD (Config.unwrittenPayload slot off)

/-- `MemWrite(FS, slot, off, v)`. -/
def State.payloadWrite (s : State) (slot off : Nat) (v : Byte) : State :=
  { s with fp := { s.fp with payload := Memory.write s.fp.payload (payloadAddr s.cfg slot off) v } }

/-- The free value a never written `length` field reads as, cut to LW bits (U2; log entry 2). -/
def freeLength (cfg : Config) (slot : Nat) : Half := BitVec.ofNat 16 (Config.unwrittenLength slot % 2 ^ cfg.lenBits)

/-- `FS[slot].length`. -/
def State.lengthRead (s : State) (slot : Nat) : Half :=
  (Memory.read s.fp.length slot).getD (freeLength s.cfg slot)

/-- `FS[slot].length <- len`. -/
def State.lengthWrite (s : State) (slot : Nat) (len : Half) : State :=
  { s with fp := { s.fp with length := Memory.write s.fp.length slot len } }

/-- `FS[slot].crc_ok`. -/
def State.crcRead (s : State) (slot : Nat) : Bool :=
  (Memory.read s.fp.crcOk slot).getD (Config.unwrittenCrc slot)

/-- `FS[slot].crc_ok <- f`. -/
def State.crcWrite (s : State) (slot : Nat) (f : Bool) : State :=
  { s with fp := { s.fp with crcOk := Memory.write s.fp.crcOk slot f } }

/-! ### Registers -/

/-- `completed_length[k]` (10_state.md R23). -/
def State.completedLength (s : State) : Buf → Nat
  | .b0 => s.sli.completedLength0
  | .b1 => s.sli.completedLength1

/-- `completed_length[k] <- n` (10_state.md R23). -/
def State.setCompletedLength (s : State) (k : Buf) (n : Nat) : State :=
  match k with
  | .b0 => { s with sli := { s.sli with completedLength0 := n } }
  | .b1 => { s with sli := { s.sli with completedLength1 := n } }

/-- `active_index <- k` (10_state.md R21). -/
def State.setActive (s : State) (k : Buf) : State := { s with sli := { s.sli with activeIndex := k } }

/-- `write_offset <- w` (10_state.md R22). -/
def State.setOffset (s : State) (w : Nat) : State := { s with sli := { s.sli with writeOffset := w } }

/-- `(i + 1) mod N`: a cursor moves on (41_frame_pool.md R122). -/
def nextSlot (cfg : Config) (i : Nat) : Nat := (i + 1) % cfg.slots

/-- The start-up values of the pool (10_state.md R35, R41): what FP.INIT and FP.RESET write (41_frame_pool.md R110, R121). The
slots are not changed (D19). -/
def State.emptyPool (s : State) : State :=
  { s with fp := { s.fp with head := 0, tail := 0, freeCount := s.cfg.slots, usedCount := 0, overflow := false } }

/-! ### Answers, events, faults -/

/-- The response word OK(ra, rx) = `{0x0, 0x0, ra, rx}` (30_encoding.md R73). -/
def okWord (ra : Byte) (rx : Half) : Word := 0#8 ++ ra ++ rx

/-- The response word NONE (30_encoding.md R73). -/
def noneWord : Word := 0x10000000#32

/-- The cause code of a FAULT response (60_exceptions.md R150). -/
def Fault.code : Fault → Byte
  | .illegalCommand => 0x01#8
  | .wrongPort => 0x02#8
  | .badIndex => 0x03#8
  | .peekEmpty => 0x04#8
  | .releaseEmpty => 0x05#8
  | .noFreeSlot => 0x06#8

/-- The response word FAULT(c) = `0xF00000cc` (30_encoding.md R73). -/
def Fault.word (f : Fault) : Word := 0xF00000#24 ++ f.code

/-- The command in service is answered with a word on its port (30_encoding.md R73). -/
def State.answer (w : Word) (s : State) : State := { s with answers := s.answers ++ [(s.port, w)] }

/-- `emit e` (00_scope.md R16). -/
def State.emit (e : Event) (s : State) : State := { s with events := s.events ++ [e] }

/-- `respond OK(ra, rx)` (00_scope.md R16). -/
def respondOk (ra : Byte) (rx : Half) (s : State) : Host.Outcome State Fault Refusal := .next (s.answer (okWord ra rx))

/-- `respond FAULT(cause)`, the block's only exception (00_scope.md R16): a fault outcome that changes no state
(60_exceptions.md R151). -/
def respondFault (f : Fault) : Host.Outcome State Fault Refusal := .fault f

/-- The permission check (60_exceptions.md R141, 30_encoding.md R77): on any other port the command answers WRONG_PORT, before
its own rule runs. -/
def onPort (p : Port) (s : State) (k : Host.Outcome State Fault Refusal) : Host.Outcome State Fault Refusal :=
  if s.port = p then k else respondFault .wrongPort

/-- The block after it has answered FAULT(f) to the command at the front of the inbox: the command is used up, its answer is
given, no state element of either unit changes, and the block goes on (60_exceptions.md R151, R154). -/
def State.answerFault (f : Fault) (s : State) : State :=
  match s.inbox with
  | .command p _ :: rest => { s with port := p, inbox := rest, answers := s.answers ++ [(p, f.word)] }
  | _ => s

/-! ### Inputs -/

/-- The next input (20_memory.md R58; 60_exceptions.md R144, R159). A PF command inside an open radio handler invocation has no
move (70_reset_and_hazards.md R187); a configuration out of range has none at all (93_implementation_defined.md V8). -/
def fetch (s : State) : Pickup :=
  if s.cfg.WellFormed then
    match s.inbox with
    | [] => .idle
    | .radioReturn :: rest => .moved { s with inbox := rest, radioOpen := false }
    | .command p w :: rest =>
      if p = .pf ∧ s.radioOpen = true then .noMove .insideRadioHandler
      else .command w { s with port := p, inbox := rest }
  else .noMove .badConfiguration

/-- Where a radio handler invocation begins and ends (60_exceptions.md R144): FP.RESERVE opens one when it answers OK, that is
when a slot is free, and closes it when it answers NONE; FP.COMMIT closes it. No other command does either. -/
def State.trackRadio (i : Instr) (t : State) : State :=
  match i with
  | .fpReserve => { t with radioOpen := decide (t.fp.freeCount ≠ 0) }
  | .fpCommit _ => { t with radioOpen := false }
  | .sliInit => t
  | .sliByte _ => t
  | .sliHas => t
  | .sliTake => t
  | .sliRead _ _ => t
  | .sliReset => t
  | .fpInit => t
  | .fpFillb _ _ => t
  | .fpSetlen _ => t
  | .fpHasdata => t
  | .fpPeek => t
  | .fpRdlen _ => t
  | .fpReadb _ _ => t
  | .fpRelease => t
  | .fpOvf => t
  | .fpReset => t

/-- After a command has completed. -/
def settle (i : Instr) : Host.Outcome State Fault Refusal → Host.Outcome State Fault Refusal
  | .next t => .next (t.trackRadio i)
  | .fault f => .fault f
  | .refused r => .refused r

/-- The port a word's command is permitted on; PF for a word that is no command. -/
def portOfWord (w : Word) : Port :=
  match decode w with
  | .command i => i.port
  | .illegal _ => .pf

/-- A command word put first in the inbox, on the port it is permitted on; a PF command also needs that no radio handler
invocation is open. -/
def State.offer (s : State) (w : Word) : State :=
  { s with
    inbox := .command (portOfWord w) w :: s.inbox
    radioOpen := s.radioOpen && decide (portOfWord w ≠ .pf) }

end Sys2Proof.Machine
end

