-- ==== Sys2Proof/Machine/FramePool.lean ====
section
/-! DEFINITION. The meanings of the twelve FramePool commands (41_frame_pool.md R110 to R121). The producer commands act on the
slot at `head` (20_memory.md R52, D16). -/

namespace Sys2Proof.Machine

/-- FP.INIT (R110). -/
def execFpInit (s : State) : Host.Outcome State Fault Refusal :=
  onPort .pf s (respondOk 0#8 0#16 s.emptyPool)

/-- FP.RESERVE (R111): NONE and the sticky flag when no slot is free, else the handle `head` and no state change. -/
def execFpReserve (s : State) : Host.Outcome State Fault Refusal :=
  onPort .pr s
    (.next (if s.fp.freeCount = 0 then (s.setOverflow true).answer noneWord
      else s.answer (okWord (zext8 s.fp.head) 0#16)))

/-- The guard of the three commands that write the slot at `head`: BAD_INDEX before NO_FREE_SLOT (60_exceptions.md R152). `ok` is
the command's own operand check; a `head` that is no slot is BAD_INDEX as well (20_memory.md R52). -/
def onHeadSlot (ok : Bool) (s : State) (k : Host.Outcome State Fault Refusal) : Host.Outcome State Fault Refusal :=
  if ok && inPool s.cfg s.fp.head then
    if s.fp.freeCount = 0 then respondFault .noFreeSlot else k
  else respondFault .badIndex

/-- FP.FILLB (R112). -/
def execFpFillb (v : Byte) (off : Half) (s : State) : Host.Outcome State Fault Refusal :=
  onPort .pr s
    (onHeadSlot (inPayload s.cfg off) s (respondOk 0#8 0#16 (s.payloadWrite s.fp.head off.toNat v)))

/-- FP.SETLEN (R113): `len` is not compared with P (10_state.md R28). -/
def execFpSetlen (len : Half) (s : State) : Host.Outcome State Fault Refusal :=
  onPort .pr s
    (onHeadSlot (fitsLength s.cfg len) s (respondOk 0#8 0#16 (s.lengthWrite s.fp.head len)))

/-- The effect of FP.COMMIT 1 on cursors and counters (R114). -/
def advanceHead (s : State) : State :=
  { s with
    fp :=
      { s.fp with
        head := nextSlot s.cfg s.fp.head
        freeCount := s.fp.freeCount - 1
        usedCount := s.fp.usedCount + 1 } }

/-- FP.COMMIT (R114): the verdict is stored in the slot; with verdict 1 the slot joins the used window. -/
def execFpCommit (f : Bool) (s : State) : Host.Outcome State Fault Refusal :=
  onPort .pr s
    (onHeadSlot true s
      (respondOk 0#8 0#16
        (if f then advanceHead (s.crcWrite s.fp.head f) else s.crcWrite s.fp.head f)))

/-- FP.HASDATA (R115). -/
def execFpHasdata (s : State) : Host.Outcome State Fault Refusal :=
  onPort .pf s (respondOk (flag8 (decide (s.fp.usedCount ≠ 0))) 0#16 s)

/-- FP.PEEK (R116). -/
def execFpPeek (s : State) : Host.Outcome State Fault Refusal :=
  onPort .pf s
    (if s.fp.usedCount = 0 then respondFault .peekEmpty else respondOk (zext8 s.fp.tail) 0#16 s)

/-- FP.RDLEN (R117): not checked against the used window (D20). -/
def execFpRdlen (slot : Byte) (s : State) : Host.Outcome State Fault Refusal :=
  onPort .pf s
    (if inPool s.cfg slot.toNat then respondOk (flag8 (s.crcRead slot.toNat)) (s.lengthRead slot.toNat) s
    else respondFault .badIndex)

/-- FP.READB (R118): `off` is not compared with the length field. -/
def execFpReadb (slot : Byte) (off : Half) (s : State) : Host.Outcome State Fault Refusal :=
  onPort .pf s
    (if inPool s.cfg slot.toNat && inPayload s.cfg off then respondOk (s.payloadRead slot.toNat off.toNat) 0#16 s
    else respondFault .badIndex)

/-- The effect of FP.RELEASE on cursors and counters (R119). -/
def advanceTail (s : State) : State :=
  { s with
    fp :=
      { s.fp with
        tail := nextSlot s.cfg s.fp.tail
        freeCount := s.fp.freeCount + 1
        usedCount := s.fp.usedCount - 1 } }

/-- FP.RELEASE (R119): one atomic step; `overflow` is not cleared. -/
def execFpRelease (s : State) : Host.Outcome State Fault Refusal :=
  onPort .pf s
    (if s.fp.usedCount = 0 then respondFault .releaseEmpty else respondOk 0#8 0#16 (advanceTail s))

/-- FP.OVF (R120): reading does not clear the flag. -/
def execFpOvf (s : State) : Host.Outcome State Fault Refusal :=
  onPort .pf s (respondOk (flag8 s.fp.overflow) 0#16 s)

/-- FP.RESET (R121): the effect of FP.INIT, from any state. -/
def execFpReset (s : State) : Host.Outcome State Fault Refusal :=
  onPort .pf s (respondOk 0#8 0#16 s.emptyPool)

end Sys2Proof.Machine
end

