-- ==== Sys2Proof/Machine/SerialLine.lean ====
section
/-! DEFINITION. The meanings of the six SerialLineIntake commands (40_serial_line_intake.md R90 to R99). Every right-hand side
reads the state as it was when the command started (00_scope.md R16). -/

namespace Sys2Proof.Machine

/-- SLI.INIT (R90). The bytes of LB are not changed (D12). -/
def execSliInit (s : State) : Host.Outcome State Fault Refusal :=
  onPort .pf s
    (respondOk 0#8 0#16
      (((((s.setActive .b0).setOffset 0).setReady false).setCompletedLength .b0 0).setCompletedLength .b1 0))

/-- The ordinary path of SLI.BYTE (R92): the byte is stored at `write_offset`, which moves on. -/
def ordinaryPath (b : Byte) (s : State) : State :=
  (s.lbWrite s.sli.activeIndex s.sli.writeOffset b).setOffset (s.sli.writeOffset + 1)

/-- The terminator path of SLI.BYTE (R93): the byte and two zero trailer bytes are stored, the length is recorded with
terminator and trailer counted (D10), the buffers flip, the ready flag is raised. -/
def terminatorPath (b : Byte) (s : State) : State :=
  let a := s.sli.activeIndex
  let w := s.sli.writeOffset
  let stored := ((s.lbWrite a w b).lbWrite a (w + 1) Config.zero).lbWrite a (w + 2) Config.zero
  (((stored.setCompletedLength a (w + 1 + Config.trailer)).setActive a.other).setOffset 0).setReady true

/-- The overlong path of SLI.BYTE (R94, D11): the byte is dropped, the marker goes where SLI.TAKE reads, the partial message is
abandoned in place, the ready flag is raised, nothing flips. -/
def overlongPath (s : State) : State :=
  ((s.setCompletedLength s.sli.activeIndex.other Config.overlongMark).setOffset 0).setReady true

/-- The dispatch of SLI.BYTE (R91): the guard `w + 2 < C` first, then the terminator test. -/
def onByte (b : Byte) (s : State) : State :=
  if s.sli.writeOffset + Config.trailer < s.cfg.capacity then
    if b ∈ s.cfg.terminators then terminatorPath b s else ordinaryPath b s
  else overlongPath s

/-- SLI.BYTE (R91): OK on every path. -/
def execSliByte (b : Byte) (s : State) : Host.Outcome State Fault Refusal :=
  onPort .pu s (respondOk 0#8 0#16 (onByte b s))

/-- SLI.HAS (R96). -/
def execSliHas (s : State) : Host.Outcome State Fault Refusal :=
  onPort .pf s (respondOk (flag8 s.sli.messageReady) 0#16 s)

/-- SLI.TAKE (R97): one atomic step, total (D13). -/
def execSliTake (s : State) : Host.Outcome State Fault Refusal :=
  onPort .pf s
    (respondOk (zext8 s.sli.activeIndex.other.index) (zext16 (s.completedLength s.sli.activeIndex.other))
      (s.setReady false))

/-- SLI.READ (R98): not checked against `active_index` or the recorded length (D14). -/
def execSliRead (k : Byte) (off : Half) (s : State) : Host.Outcome State Fault Refusal :=
  onPort .pf s
    (match bufferOf k with
    | none => respondFault .badIndex
    | some buf => if inBuffer s.cfg off then respondOk (s.lbRead buf off.toNat) 0#16 s else respondFault .badIndex)

/-- SLI.RESET (R99): clears the flag and emits FlushRx, EnableRxIrq; nothing else changes (D15, D28). -/
def execSliReset (s : State) : Host.Outcome State Fault Refusal :=
  onPort .pf s (respondOk 0#8 0#16 (((s.setReady false).emit .flushRx).emit .enableRxIrq))

end Sys2Proof.Machine
end

