-- ==== Sys2Proof/Machine/Dispatch.lean ====
section
/-! DEFINITION. One arm per command, each a direct call of its meaning. -/

namespace Sys2Proof.Machine

/-- The effect of a command on the state in which it is served (30_encoding.md R77, last line). -/
def exec (i : Instr) (s : State) : Host.Outcome State Fault Refusal :=
  match i with
  | .sliInit => Sys2Proof.Machine.execSliInit s
  | .sliByte b => Sys2Proof.Machine.execSliByte b s
  | .sliHas => Sys2Proof.Machine.execSliHas s
  | .sliTake => Sys2Proof.Machine.execSliTake s
  | .sliRead k off => Sys2Proof.Machine.execSliRead k off s
  | .sliReset => Sys2Proof.Machine.execSliReset s
  | .fpInit => Sys2Proof.Machine.execFpInit s
  | .fpReserve => Sys2Proof.Machine.execFpReserve s
  | .fpFillb v off => Sys2Proof.Machine.execFpFillb v off s
  | .fpSetlen len => Sys2Proof.Machine.execFpSetlen len s
  | .fpCommit f => Sys2Proof.Machine.execFpCommit f s
  | .fpHasdata => Sys2Proof.Machine.execFpHasdata s
  | .fpPeek => Sys2Proof.Machine.execFpPeek s
  | .fpRdlen slot => Sys2Proof.Machine.execFpRdlen slot s
  | .fpReadb slot off => Sys2Proof.Machine.execFpReadb slot off s
  | .fpRelease => Sys2Proof.Machine.execFpRelease s
  | .fpOvf => Sys2Proof.Machine.execFpOvf s
  | .fpReset => Sys2Proof.Machine.execFpReset s

end Sys2Proof.Machine
end

