-- ==== Sys2Proof/Machine/Step.lean ====
section
/-! DEFINITION. One step: the next input is taken, a command word is decoded (30_encoding.md R77) and executed, and the radio
handler's invocation is tracked (60_exceptions.md R144). Everything it does stands in Ops.lean, Decode.lean and the meanings. -/

namespace Sys2Proof.Machine

/-- One step of the machine. -/
def step (s : State) : Host.Outcome State Fault Refusal :=
  match fetch s with
  | .idle => .next s
  | .moved t => .next t
  | .noMove r => .refused r
  | .command w t =>
    match decode w with
    | .illegal _ => respondFault .illegalCommand
    | .command i => settle i (exec i t)

/-- The state with an opcode-table word offered as the next command, on the port it is permitted on (log entry 4). -/
def State.withFetchWord (s : State) (nbits w : Nat) : State := s.offer (tableWord nbits w)

/-- The block seen through its answers: a step that faults answers FAULT, changes nothing and the block goes on
(60_exceptions.md R151, R154); where there is no move nothing happens. `step` itself stops at a fault, as R151 tells a model. -/
def advance (s : State) : State :=
  match step s with
  | .next t => t
  | .fault f => s.answerFault f
  | .refused _ => s

end Sys2Proof.Machine
end

