-- ==== Sys2Proof/Machine/Coordinator.lean ====
section
/-! DEFINITION. The foreground coordinator (60_exceptions.md R160 to R162): the host's polling loop, which the spec describes though
it is no part of the block (00_scope.md R3). No step of the machine uses it; claims about a correct host do. -/

namespace Sys2Proof.Machine

/-- Where the loop stands. -/
inductive Phase where
  /-- R160 (1): ask for a frame. -/
  | checkData
  /-- R160 (1): look at the oldest frame. -/
  | peek
  /-- R160 (1): read the length and the verdict of the slot. -/
  | readFields (slot : Byte)
  /-- R160 (1): read `left` payload bytes of the slot, from `off` on. -/
  | readPayload (slot : Byte) (off left : Nat)
  /-- R160 (1): release the frame. -/
  | release
  /-- R160 (2): ask for the overflow flag. -/
  | checkOverflow
  /-- R161: recover from an overflow. -/
  | resetPool
  /-- R160 (3): ask for a message. -/
  | checkLine
  /-- R160 (3): take the message. -/
  | take
  /-- R162: recover from an overlong line. -/
  | resetLine
  /-- R160 (3): read `left` bytes of the view, from `off` on. -/
  | readView (k : Byte) (off left : Nat)
  deriving DecidableEq, Repr

/-- The command the coordinator issues next. -/
def Phase.command : Phase → Instr
  | .checkData => .fpHasdata
  | .peek => .fpPeek
  | .readFields slot => .fpRdlen slot
  | .readPayload slot off _ => .fpReadb slot (zext16 off)
  | .release => .fpRelease
  | .checkOverflow => .fpOvf
  | .resetPool => .fpReset
  | .checkLine => .sliHas
  | .take => .sliTake
  | .resetLine => .sliReset
  | .readView k off _ => .sliRead k (zext16 off)

/-- The `ra` field of a response (30_encoding.md R73). -/
def resultByte (w : Word) : Byte := w.extractLsb' 16 8

/-- The `rx` field of a response (30_encoding.md R73). -/
def resultHalf (w : Word) : Half := w.extractLsb' 0 16

/-- Payload bytes are left to read, or the frame is released. -/
def Phase.payloadFrom (slot : Byte) (off left : Nat) : Phase := if left = 0 then .release else .readPayload slot off left

/-- Bytes of the view are left to read, or the iteration is over. -/
def Phase.viewFrom (k : Byte) (off left : Nat) : Phase := if left = 0 then .checkData else .readView k off left

/-- Where the loop goes when its command was answered with `w`. DESIGN CHOICE (log entry 10): of a frame it reads as many payload
bytes as the length field says, at most P; of a view all `L` bytes. -/
def Phase.after (cfg : Config) (w : Word) : Phase → Phase
  | .checkData => if resultByte w = 1#8 then .peek else .checkOverflow
  | .peek => .readFields (resultByte w)
  | .readFields slot => Phase.payloadFrom slot 0 (min (resultHalf w).toNat cfg.payloadBytes)
  | .readPayload slot off left => Phase.payloadFrom slot (off + 1) (left - 1)
  | .release => .checkOverflow
  | .checkOverflow => if resultByte w = 1#8 then .resetPool else .checkLine
  | .resetPool => .checkLine
  | .checkLine => if resultByte w = 1#8 then .take else .checkData
  | .take =>
    if (resultHalf w).toNat = Config.overlongMark then .resetLine
    else Phase.viewFrom (resultByte w) 0 (resultHalf w).toNat
  | .resetLine => .checkData
  | .readView k off left => Phase.viewFrom k (off + 1) (left - 1)

end Sys2Proof.Machine
end

