-- ==== Sys2Proof/Safety.lean ====
section
/-! DEFINITION. What claims about the block speak of: the invariants of both units (10_state.md R22, R23, R26, R32, R34,
40_serial_line_intake.md R103, 41_frame_pool.md R114), runs, and the duties of a correct host (70_reset_and_hazards.md R187). -/

namespace Sys2Proof.Machine

/-! ### Invariants -/

/-- Every element is within the range 10_state.md R20 and R29 state for it, as far as a pool no FP.INIT has initialised keeps it
(log entry 7): the counters' range is `PoolOk`'s. -/
structure Ranged (s : State) : Prop where
  config : s.cfg.WellFormed
  offset : s.sli.writeOffset + 2 ≤ s.cfg.capacity
  length0 : s.sli.completedLength0 ≤ s.cfg.capacity
  length1 : s.sli.completedLength1 ≤ s.cfg.capacity
  head : s.fp.head < s.cfg.slots
  tail : s.fp.tail < s.cfg.slots

/-- Memory is in canonical form and lists only locations that exist (20_memory.md R50, R51, R52), and a stored length fits its
field (10_state.md R29). -/
structure MemoryOk (s : State) : Prop where
  lbForm : Memory.wf s.sli.lb = true
  payloadForm : Memory.wf s.fp.payload = true
  lengthForm : Memory.wf s.fp.length = true
  crcForm : Memory.wf s.fp.crcOk = true
  lbInside : ∀ c ∈ s.sli.lb, c.1 < 2 * s.cfg.capacity
  payloadInside : ∀ c ∈ s.fp.payload, c.1 < s.cfg.slots * s.cfg.payloadBytes
  lengthInside : ∀ c ∈ s.fp.length, c.1 < s.cfg.slots ∧ c.2.toNat < 2 ^ s.cfg.lenBits
  crcInside : ∀ c ∈ s.fp.crcOk, c.1 < s.cfg.slots

/-- Power-on as far as the model says it (log entries 1, 2): every element within the range 10_state.md R20 and R29 state for it, and no
byte or field of LB and FS written. -/
structure Fresh (s : State) : Prop where
  ranged : Ranged s
  memory : MemoryOk s
  free : s.fp.freeCount ≤ s.cfg.slots
  used : s.fp.usedCount ≤ s.cfg.slots
  lb : s.sli.lb = []
  payload : s.fp.payload = []
  length : s.fp.length = []
  crcOk : s.fp.crcOk = []

/-- The pool's invariants once FP.INIT has run (10_state.md R32, R34, 41_frame_pool.md R123). -/
structure PoolOk (s : State) : Prop where
  slots : 1 ≤ s.cfg.slots
  conserved : s.fp.freeCount + s.fp.usedCount = s.cfg.slots
  tail : s.fp.tail < s.cfg.slots
  head : s.fp.head = (s.fp.tail + s.fp.usedCount) % s.cfg.slots

/-- The used window: the slots of committed, unreleased frames, oldest first (20_memory.md R60). -/
def State.window (s : State) : List Nat :=
  (List.range s.fp.usedCount).map fun j => (s.fp.tail + j) % s.cfg.slots

/-- Every slot of the used window has `crc_ok = 1` (41_frame_pool.md R114). -/
def WindowCrc (s : State) : Prop := ∀ slot ∈ s.window, Memory.read s.fp.crcOk slot = some true

/-- The ranges of SerialLineIntake once SLI.INIT has run: `write_offset <= C - 2` (10_state.md R22), and a recorded length is 0,
the marker 1, or between 3 and C (R23). -/
structure SliOk (s : State) : Prop where
  offset : s.sli.writeOffset + 2 ≤ s.cfg.capacity
  lengths : ∀ k, s.completedLength k = 0 ∨ s.completedLength k = 1 ∨
    (3 ≤ s.completedLength k ∧ s.completedLength k ≤ s.cfg.capacity)

/-- Buffer `k` holds a message of recorded length `L` (40_serial_line_intake.md R103, 20_memory.md R55): the bytes before offset
`L - 3` are no terminators, the byte there is one, and two zero bytes follow. -/
structure MessageAt (s : State) (k : Buf) (L : Nat) : Prop where
  text : ∀ off, off + 3 < L → ∃ b, s.lbWritten k off = some b ∧ b ∉ s.cfg.terminators
  terminator : ∃ b, s.lbWritten k (L - 3) = some b ∧ b ∈ s.cfg.terminators
  trailer1 : s.lbWritten k (L - 2) = some 0x00#8
  trailer2 : s.lbWritten k (L - 1) = some 0x00#8

/-- The framing invariant (40_serial_line_intake.md R103): the active buffer's first `write_offset` bytes are no terminators, and
a recorded length of 3 or more in the other buffer's entry is that of a message it holds. -/
structure Framed (s : State) : Prop where
  ranges : SliOk s
  partialText : ∀ off, off < s.sli.writeOffset →
    ∃ b, s.lbWritten s.sli.activeIndex off = some b ∧ b ∉ s.cfg.terminators
  completed : 3 ≤ s.completedLength s.sli.activeIndex.other →
    MessageAt s s.sli.activeIndex.other (s.completedLength s.sli.activeIndex.other)

/-! ### Runs -/

/-- `n` steps of the machine, stopping at the first fault or refusal: the host's `Core.run` of `Sys2Proof.core`. -/
def run : Nat → State → Host.Outcome State Fault Refusal
  | 0, s => .next s
  | n + 1, s =>
    match step s with
    | .next t => run n t
    | .fault f => .fault f
    | .refused r => .refused r

/-- A command word arriving on the port its command is permitted on. -/
def inputOf (i : Instr) : Input := .command i.port (encode i)

/-- The bytes of a serial line, one handler invocation each (60_exceptions.md R142). -/
def lineInputs (bytes : List Byte) : List Input := bytes.map fun b => inputOf (.sliByte b)

/-- The word answered last. -/
def State.lastAnswer (s : State) : Word := (s.answers.getLast?.map Prod.snd).getD 0#32

/-! ### The duties of a correct host (70_reset_and_hazards.md R171, R172, R178, R180, R187) -/

/-- What a correct host knows from the answers it got. -/
structure HostDuty where
  /-- SLI.INIT has been answered (R171 (1)). -/
  sliUp : Bool
  /-- FP.INIT (or FP.RESET, the other initialising command, R170) has been answered (R171 (2)). -/
  fpUp : Bool
  /-- An SLI.HAS answered 1, and no SLI.TAKE or SLI.RESET since (20_memory.md R59). -/
  ready : Bool
  /-- An FP.HASDATA answered 1, and no FP.RELEASE or FP.RESET since (R178). -/
  data : Bool
  /-- A radio handler invocation is open (60_exceptions.md R144). -/
  inHandler : Bool
  deriving DecidableEq, Repr

/-- At power-on the host knows nothing. -/
def HostDuty.start : HostDuty := { sliUp := false, fpUp := false, ready := false, data := false, inHandler := false }

/-- The commands a correct host may issue next: initialise first (R171), observe before take (R172), check before peek and release
(R178), the invocation shape (R144, R180), no PF command inside an invocation (R144). -/
def HostDuty.permits (d : HostDuty) : Instr → Bool
  | .sliInit => !d.inHandler
  | .sliByte _ => d.sliUp
  | .sliHas => d.sliUp && !d.inHandler
  | .sliTake => d.sliUp && d.ready && !d.inHandler
  | .sliRead _ _ => d.sliUp && !d.inHandler
  | .sliReset => d.sliUp && !d.inHandler
  | .fpInit => !d.inHandler
  | .fpReserve => d.fpUp && !d.inHandler
  | .fpFillb _ _ => d.inHandler
  | .fpSetlen _ => d.inHandler
  | .fpCommit _ => d.inHandler
  | .fpHasdata => d.fpUp && !d.inHandler
  | .fpPeek => d.fpUp && d.data && !d.inHandler
  | .fpRdlen _ => d.fpUp && !d.inHandler
  | .fpReadb _ _ => d.fpUp && !d.inHandler
  | .fpRelease => d.fpUp && d.data && !d.inHandler
  | .fpOvf => d.fpUp && !d.inHandler
  | .fpReset => !d.inHandler

/-- What the host knows after a command was answered with `w`. -/
def HostDuty.after (d : HostDuty) (w : Word) : Instr → HostDuty
  | .sliInit => { d with sliUp := true, ready := false }
  | .sliByte _ => d
  | .sliHas => { d with ready := d.ready || decide (w = okWord 1#8 0#16) }
  | .sliTake => { d with ready := false }
  | .sliRead _ _ => d
  | .sliReset => { d with ready := false }
  | .fpInit => { d with fpUp := true, data := false }
  | .fpReserve => { d with inHandler := decide (w ≠ noneWord) }
  | .fpFillb _ _ => d
  | .fpSetlen _ => d
  | .fpCommit _ => { d with inHandler := false }
  | .fpHasdata => { d with data := d.data || decide (w = okWord 1#8 0#16) }
  | .fpPeek => d
  | .fpRdlen _ => d
  | .fpReadb _ _ => d
  | .fpRelease => { d with data := false }
  | .fpOvf => d
  | .fpReset => { d with fpUp := true, data := false }

/-- What the host knows is true of the block. -/
structure Agrees (d : HostDuty) (s : State) : Prop where
  config : s.cfg.WellFormed
  sli : d.sliUp = true → Framed s
  pool : d.fpUp = true → PoolOk s
  crc : d.fpUp = true → WindowCrc s
  data : d.data = true → d.fpUp = true ∧ s.fp.usedCount ≠ 0
  handler : d.inHandler = true → d.fpUp = true ∧ s.fp.freeCount ≠ 0
  schedule : s.radioOpen = d.inHandler

/-- What the coordinator relies on at a point of its loop: a frame it was told of, a message it was told of, operands that exist
(60_exceptions.md R160, 70_reset_and_hazards.md R172, R178). -/
def Phase.Knows (cfg : Config) (d : HostDuty) : Phase → Prop
  | .checkData => True
  | .peek => d.data = true
  | .readFields slot => d.data = true ∧ slot.toNat < cfg.slots
  | .readPayload slot off left => d.data = true ∧ slot.toNat < cfg.slots ∧ 0 < left ∧ off + left ≤ cfg.payloadBytes
  | .release => d.data = true
  | .checkOverflow => True
  | .resetPool => True
  | .checkLine => True
  | .take => d.ready = true
  | .resetLine => True
  | .readView k off left => k.toNat ≤ 1 ∧ 0 < left ∧ off + left ≤ cfg.capacity

/-- The next `n` inputs are those of a correct host: each is a command on its own port, permitted by what the host knows, with
operands that exist. -/
def Dutiful : Nat → HostDuty → State → Prop
  | 0, _, _ => True
  | n + 1, d, s =>
    match s.inbox with
    | [] => True
    | .radioReturn :: _ => False
    | .command p w :: _ =>
      ∃ i, decode w = .command i ∧ p = i.port ∧ d.permits i = true ∧ i.WellFormed s.cfg = true ∧
        ∀ t, step s = .next t → Dutiful n (d.after t.lastAnswer i) t

end Sys2Proof.Machine
end

