-- ==== Sys2Proof/Certificates/Slice0/Obligations.lean ====
section
/-! DEFINITION. The statements for the provers. Each docstring cites the rules of spec/ it states. Where a statement reads memory
or a power-on value that no command wrote, it holds for every free value. -/

open Sys2Proof Sys2Proof.Machine

/-! ### Encoding (30_encoding.md) -/

/-- One word of each format and both units, written out from the vectors of 95_test_vectors.md 2.1 (30_encoding.md R70 to R72). -/
def Obligations.DecodeVectorWords : Prop :=
  decode 0x10000000#32 = .command .sliInit ∧ decode 0x11410000#32 = .command (.sliByte 0x41#8) ∧
  decode 0x14010009#32 = .command (.sliRead 1#8 9#16) ∧ decode 0x225C0003#32 = .command (.fpFillb 0x5C#8 3#16) ∧
  decode 0x230000FF#32 = .command (.fpSetlen 255#16) ∧ decode 0x24000000#32 = .command (.fpCommit false) ∧
  decode 0x24010000#32 = .command (.fpCommit true) ∧ decode 0x27010000#32 = .command (.fpRdlen 1#8) ∧
  decode 0x28010002#32 = .command (.fpReadb 1#8 2#16) ∧ decode 0x2B000000#32 = .command .fpReset

/-- Decoding an encoded command gives it back, every operand at every value its field admits (30_encoding.md R70 to R74). -/
def Obligations.DecodeOfEncode : Prop := ∀ i : Instr, decode (encode i) = .command i

/-- A word has one meaning: it is the encoding of the command it decodes to (30_encoding.md R71, R74, R77). -/
def Obligations.EncodeOfDecode : Prop := ∀ (w : Word) (i : Instr), decode w = .command i → encode i = w

/-- The decoder agrees with the table of R74 read as R71 says: a word decodes to a command exactly when `cmd & mask = match` for
some row, the row is that command's, with its port, and no word matches two rows (30_encoding.md R71, R74, R77). -/
def Obligations.DecodeAgreesWithTable : Prop :=
  ∀ w : Word,
    ((∃ i, decode w = .command i) ↔ ∃ r ∈ opcodeTable, w &&& r.mask = r.pattern) ∧
    (∀ i, decode w = .command i → ∀ r ∈ opcodeTable, w &&& r.mask = r.pattern →
      r.mnemonic = i.mnemonic ∧ r.port = i.port) ∧
    ∀ r ∈ opcodeTable, ∀ r' ∈ opcodeTable, w &&& r.mask = r.pattern → w &&& r'.mask = r'.pattern → r = r'

/-- Every `op` outside 0x10..0x15 and 0x20..0x2B is illegal whatever the other fields hold, and a legal `op` with a non-zero bit
in a field its format says must be zero is illegal (30_encoding.md R75). -/
def Obligations.IllegalWords : Prop :=
  (∀ op a x, ¬(0x10 ≤ op.toNat ∧ op.toNat ≤ 0x15) → ¬(0x20 ≤ op.toNat ∧ op.toNat ≤ 0x2B) →
    ∃ why, decode (packFields op a x) = .illegal why) ∧
  (∀ op a x, op ∈ [0x10#8, 0x12#8, 0x13#8, 0x15#8, 0x20#8, 0x21#8, 0x25#8, 0x26#8, 0x29#8, 0x2A#8, 0x2B#8] →
    ¬(a = 0#8 ∧ x = 0#16) → decode (packFields op a x) = .illegal .nonZeroField) ∧
  (∀ op a x, op ∈ [0x11#8, 0x27#8] → x ≠ 0#16 → decode (packFields op a x) = .illegal .nonZeroField) ∧
  (∀ a x, ¬(a.toNat ≤ 1 ∧ x = 0#16) → decode (packFields 0x24#8 a x) = .illegal .nonZeroField) ∧
  (∀ a x, a ≠ 0#8 → decode (packFields 0x23#8 a x) = .illegal .nonZeroField)

/-- The layout of the three kinds of response word (30_encoding.md R73, 60_exceptions.md R150). -/
def Obligations.ResponseWordLayout : Prop :=
  (∀ ra rx, (okWord ra rx).toNat = ra.toNat * 65536 + rx.toNat) ∧ noneWord = 0x10000000#32 ∧
  Fault.word .illegalCommand = 0xF0000001#32 ∧ Fault.word .wrongPort = 0xF0000002#32 ∧
  Fault.word .badIndex = 0xF0000003#32 ∧ Fault.word .peekEmpty = 0xF0000004#32 ∧
  Fault.word .releaseEmpty = 0xF0000005#32 ∧ Fault.word .noFreeSlot = 0xF0000006#32

/-! ### The step, the ports, the faults (60_exceptions.md) -/

/-- A step runs the decoded command: when the next input is a command word that has a move and decodes to `i`, the step is `exec
i` on the port the word arrived on, with the word used up; around `exec` it only tracks whether a radio handler invocation is open
(30_encoding.md R77, 60_exceptions.md R144; the tracking is the model's, log entry 5). -/
def Obligations.StepRunsTheDecodedCommand : Prop :=
  ∀ (s : State) (p : Port) (w : Word) (rest : List Input) (i : Instr),
    s.cfg.WellFormed → s.inbox = .command p w :: rest → ¬(p = .pf ∧ s.radioOpen = true) → decode w = .command i →
    (∀ f, exec i { s with port := p, inbox := rest } = .fault f → step s = .fault f) ∧
    (∀ u, exec i { s with port := p, inbox := rest } = .next u →
      step s = .next { u with
        radioOpen :=
          if i = .fpReserve then decide (u.fp.freeCount ≠ 0)
          else if i = .fpCommit false ∨ i = .fpCommit true then false
          else u.radioOpen })

/-- The steps that execute nothing: an undecodable word is answered FAULT(ILLEGAL_COMMAND) on any port before any other check
(30_encoding.md R75, R77); a configuration out of range is refused (93_implementation_defined.md V8); with no input left the machine
stays as it is (70_reset_and_hazards.md R188; the idle step is the model's choice, log entry 4); the return of the radio handler
uses up its input, closes the invocation and changes nothing else (the input is the model's choice, log entry 5). -/
def Obligations.StepsThatExecuteNothing : Prop :=
  (∀ (s : State) (p : Port) (w : Word) (rest : List Input) (why : Illegal),
    s.cfg.WellFormed → s.inbox = .command p w :: rest → ¬(p = .pf ∧ s.radioOpen = true) → decode w = .illegal why →
    step s = .fault .illegalCommand) ∧
  (∀ s : State, ¬s.cfg.WellFormed → step s = .refused .badConfiguration) ∧
  (∀ s : State, s.cfg.WellFormed → s.inbox = [] → step s = .next s) ∧
  ∀ (s : State) (rest : List Input), s.cfg.WellFormed → s.inbox = .radioReturn :: rest →
    step s = .next { s with inbox := rest, radioOpen := false }

/-- No PF command runs inside an open radio handler invocation; a PU or PR command may (60_exceptions.md R144, R159 b). A PF command,
whatever its word, that stands at the front of the inbox while an invocation is open is refused by name (log entry 5: the model's
way to say that there is no such move, 70_reset_and_hazards.md R187). -/
def Obligations.NoForegroundInsideHandler : Prop :=
  (∀ (s t : State), s.radioOpen = true → step s = .next t →
    ∀ (p : Port) (w : Word) (rest : List Input), s.inbox = .command p w :: rest → p = .pu ∨ p = .pr) ∧
  ∀ (s : State) (w : Word) (rest : List Input), s.cfg.WellFormed → s.radioOpen = true → s.inbox = .command .pf w :: rest →
    step s = .refused .insideRadioHandler

/-- Each command is permitted on exactly one port, that of the table of R141; on any other it answers FAULT(WRONG_PORT), whatever
its operands and the state (60_exceptions.md R141). -/
def Obligations.WrongPortFaults : Prop :=
  (∀ i : Instr, (i.port = .pu ↔ ∃ b, i = .sliByte b) ∧
    (i.port = .pr ↔ i = .fpReserve ∨ (∃ v off, i = .fpFillb v off) ∨ (∃ len, i = .fpSetlen len) ∨ ∃ f, i = .fpCommit f)) ∧
  ∀ (i : Instr) (s : State), s.port ≠ i.port → exec i s = .fault .wrongPort

/-- On its own port a command answers BAD_INDEX exactly when an operand names nothing that exists, before any cause that depends
on the state (30_encoding.md R72, 60_exceptions.md R150, R152). The second half has the premise that `head` is a slot, an invariant
of the model (`RangesKept`). -/
def Obligations.BadIndexExactly : Prop :=
  ∀ (i : Instr) (s : State), s.port = i.port →
    (i.WellFormed s.cfg = false → exec i s = .fault .badIndex) ∧
    (s.fp.head < s.cfg.slots → exec i s = .fault .badIndex → i.WellFormed s.cfg = false)

/-- The state-dependent causes: FP.PEEK and FP.RELEASE on an empty pool, the commands that write the reserved slot with no free
slot, FP.COMMIT with either flag (60_exceptions.md R150, R152, 41_frame_pool.md R112 to R114, R116, R119). -/
def Obligations.StateDependentFaults : Prop :=
  (∀ s : State, s.port = .pf → s.fp.usedCount = 0 →
    exec .fpPeek s = .fault .peekEmpty ∧ exec .fpRelease s = .fault .releaseEmpty) ∧
  ∀ s : State, s.port = .pr → s.fp.head < s.cfg.slots → s.fp.freeCount = 0 →
    (∀ f, exec (.fpCommit f) s = .fault .noFreeSlot) ∧
    (∀ v off, off.toNat < s.cfg.payloadBytes → exec (.fpFillb v off) s = .fault .noFreeSlot) ∧
    ∀ len, len.toNat < 2 ^ s.cfg.lenBits → exec (.fpSetlen len) s = .fault .noFreeSlot

/-- Every fault of a command is one 60_exceptions.md R150 lists for it, but for one clause of the model's own, and no command is refused.
That clause, BAD_INDEX from FP.FILLB, FP.SETLEN and FP.COMMIT where `head` is no slot, is the model's choice (log entry 11, DEDUCED
from 20_memory.md R52: R150 lists no BAD_INDEX for FP.COMMIT); no run reaches it (`RangesKept`). -/
def Obligations.FaultsOnlyAsListed : Prop :=
  ∀ (i : Instr) (s : State),
    (∀ r, exec i s ≠ .refused r) ∧
    ∀ f, exec i s = .fault f →
      (f = .wrongPort ∧ s.port ≠ i.port) ∨
      (f = .badIndex ∧ (i.WellFormed s.cfg = false ∨ (s.cfg.slots ≤ s.fp.head ∧
        ((∃ v off, i = .fpFillb v off) ∨ (∃ len, i = .fpSetlen len) ∨ ∃ g, i = .fpCommit g)))) ∨
      (f = .peekEmpty ∧ i = .fpPeek ∧ s.fp.usedCount = 0) ∨
      (f = .releaseEmpty ∧ i = .fpRelease ∧ s.fp.usedCount = 0) ∨
      (f = .noFreeSlot ∧ s.fp.freeCount = 0 ∧
        ((∃ v off, i = .fpFillb v off) ∨ (∃ len, i = .fpSetlen len) ∨ ∃ g, i = .fpCommit g))

/-- A command answered FAULT changes no state element of either unit, writes no memory and emits no event, and the block goes on:
only the command is used up and its answer given (60_exceptions.md R151). That the block goes on through `advance` beside the
faulting `step` is the model's reading (log entry 8, DEDUCED), and so is that a radio handler invocation stays open over a FAULT
(log entry 5, DEDUCED from R154). -/
def Obligations.FaultAnswerChangesNothing : Prop :=
  ∀ (s : State) (p : Port) (w : Word) (rest : List Input) (f : Fault),
    s.inbox = .command p w :: rest → step s = .fault f →
    advance s = { s with port := p, inbox := rest, answers := s.answers ++ [(p, 0xF0000000#32 ||| BitVec.ofNat 32 f.code.toNat)] }

/-! ### SerialLineIntake, command by command (40_serial_line_intake.md) -/

/-- SLI.INIT (R90): from any state, and nothing but the named elements changes. -/
def Obligations.SliInitResult : Prop :=
  decode 0x10000000#32 = .command .sliInit ∧
  ∀ s : State, s.port = .pf →
    exec .sliInit s = .next { s with
      sli := { s.sli with
        activeIndex := .b0, writeOffset := 0, messageReady := false, completedLength0 := 0, completedLength1 := 0 }
      answers := s.answers ++ [(.pf, okWord 0#8 0#16)] }

/-- The ordinary path of SLI.BYTE (R92): the byte is stored at `write_offset` of the active buffer, `write_offset` moves on, and
nothing else changes. -/
def Obligations.SliByteOrdinaryPath : Prop :=
  ∀ (s : State) (b : Byte), s.port = .pu → s.sli.writeOffset + 2 < s.cfg.capacity → b ∉ s.cfg.terminators →
    ∃ t, exec (.sliByte b) s = .next t ∧
      t = { s with
        sli := { s.sli with lb := t.sli.lb, writeOffset := s.sli.writeOffset + 1 }
        answers := s.answers ++ [(.pu, okWord 0#8 0#16)] } ∧
      t.sli.writeOffset + 2 ≤ s.cfg.capacity ∧
      ∀ addr, Memory.read t.sli.lb addr =
        if addr = lbAddr s.cfg s.sli.activeIndex s.sli.writeOffset then some b else Memory.read s.sli.lb addr

/-- The terminator path of SLI.BYTE (R93): the byte and two zero bytes are stored, the recorded length is `w + 3`, the buffers
flip, `write_offset` returns to 0, the ready flag is raised, and nothing else changes. -/
def Obligations.SliByteTerminatorPath : Prop :=
  ∀ (s : State) (b : Byte), s.port = .pu → s.sli.writeOffset + 2 < s.cfg.capacity → b ∈ s.cfg.terminators →
    ∃ t, exec (.sliByte b) s = .next t ∧
      t = { s with
        sli := { s.sli with
          lb := t.sli.lb, writeOffset := 0, messageReady := true, activeIndex := s.sli.activeIndex.other
          completedLength0 := t.sli.completedLength0, completedLength1 := t.sli.completedLength1 }
        answers := s.answers ++ [(.pu, okWord 0#8 0#16)] } ∧
      t.completedLength s.sli.activeIndex = s.sli.writeOffset + 3 ∧ s.sli.writeOffset + 3 ≤ s.cfg.capacity ∧
      t.completedLength s.sli.activeIndex.other = s.completedLength s.sli.activeIndex.other ∧
      ∀ addr, Memory.read t.sli.lb addr =
        if addr = lbAddr s.cfg s.sli.activeIndex s.sli.writeOffset then some b
        else if addr = lbAddr s.cfg s.sli.activeIndex (s.sli.writeOffset + 1) ∨
          addr = lbAddr s.cfg s.sli.activeIndex (s.sli.writeOffset + 2) then some 0x00#8
        else Memory.read s.sli.lb addr

/-- The overlong path of SLI.BYTE (R94), whatever the byte: the byte is dropped, the marker 1 goes into the entry of the
non-active buffer, `write_offset` returns to 0, the ready flag is raised, nothing flips, no byte is stored, nothing else
changes. -/
def Obligations.SliByteOverlongPath : Prop :=
  ∀ (s : State) (b : Byte), s.port = .pu → s.cfg.capacity ≤ s.sli.writeOffset + 2 →
    ∃ t, exec (.sliByte b) s = .next t ∧
      t = { s with
        sli := { s.sli with
          writeOffset := 0, messageReady := true
          completedLength0 := t.sli.completedLength0, completedLength1 := t.sli.completedLength1 }
        answers := s.answers ++ [(.pu, okWord 0#8 0#16)] } ∧
      t.completedLength s.sli.activeIndex.other = 1 ∧
      t.completedLength s.sli.activeIndex = s.completedLength s.sli.activeIndex

/-- SLI.HAS (R96): answers `message_ready` and changes no state. -/
def Obligations.SliHasResult : Prop :=
  decode 0x12000000#32 = .command .sliHas ∧
  ∀ s : State, s.port = .pf →
    exec .sliHas s = .next { s with
      answers := s.answers ++ [(.pf, okWord (if s.sli.messageReady then 1#8 else 0#8) 0#16)] }

/-- SLI.TAKE (R97): total, whatever `message_ready` is; it answers the non-active buffer and its recorded length and clears the
flag; a second one answers the same. -/
def Obligations.SliTakeResult : Prop :=
  decode 0x13000000#32 = .command .sliTake ∧
  ∀ s : State, s.port = .pf →
    ∃ t, exec .sliTake s = .next t ∧
      t = { s with
        sli := { s.sli with messageReady := false }
        answers := s.answers ++ [(.pf, okWord (BitVec.ofNat 8 (1 - s.sli.activeIndex.index))
          (BitVec.ofNat 16 (s.completedLength s.sli.activeIndex.other)))] } ∧
      ∃ u, exec .sliTake t = .next u ∧ u.sli = t.sli ∧ u.lastAnswer = t.lastAnswer

/-- SLI.READ (R98): on a buffer index 0 or 1 and an offset below C it answers the byte there, active buffer or not, beyond the
recorded length or not, and changes no state; on any other index or offset it answers BAD_INDEX. That a byte no command has
written reads as a free value keyed by its location is the model's choice among those of U2 (log entry 2, DESIGN CHOICE). -/
def Obligations.SliReadResult : Prop :=
  (∀ k off, decode (packFields 0x14#8 k off) = .command (.sliRead k off)) ∧
  (∀ (s : State) (k : Byte) (off : Half), s.port = .pf → 1 < k.toNat ∨ s.cfg.capacity ≤ off.toNat →
    exec (.sliRead k off) s = .fault .badIndex) ∧
  ∀ (s : State) (k : Byte) (off : Half) (buf : Buf), s.port = .pf → k.toNat = buf.index → off.toNat < s.cfg.capacity →
    exec (.sliRead k off) s = .next { s with
      answers := s.answers ++
        [(.pf, okWord ((s.lbWritten buf off.toNat).getD (Config.unwrittenLB buf.index off.toNat)) 0#16)] }

/-- SLI.RESET (R99): clears `message_ready`, emits FlushRx and EnableRxIrq in that order, and changes nothing else. -/
def Obligations.SliResetResult : Prop :=
  decode 0x15000000#32 = .command .sliReset ∧
  ∀ s : State, s.port = .pf →
    exec .sliReset s = .next { s with
      sli := { s.sli with messageReady := false }
      events := s.events ++ [.flushRx, .enableRxIrq]
      answers := s.answers ++ [(.pf, okWord 0#8 0#16)] }

/-! ### SerialLineIntake, its properties -/

/-- P1 (40_serial_line_intake.md R100): no SLI.BYTE changes a byte of the buffer that is not active, and SLI.TAKE answers the
index of a buffer that is not the active one. -/
def Obligations.DoubleBufferExclusive : Prop :=
  (∀ (s t : State) (b : Byte), exec (.sliByte b) s = .next t →
    ∀ off, off < s.cfg.capacity → t.lbWritten s.sli.activeIndex.other off = s.lbWritten s.sli.activeIndex.other off) ∧
  ∀ (s t : State), exec .sliTake s = .next t →
    t.sli.activeIndex = s.sli.activeIndex ∧ ((t.lastAnswer >>> 16) &&& 0xFF#32).toNat ≠ t.sli.activeIndex.index

/-- P2 in general (40_serial_line_intake.md R92, R93, R101, R103): a line of non-terminators and a terminator that fits, fed from
offset 0, step by step from the inbox, completes a message: the bytes, the terminator and two zero bytes stand in the buffer that
was active, the recorded length is their number, the other buffer and the pool are untouched, and every byte is answered OK. -/
def Obligations.LineCompletesMessage : Prop :=
  ∀ (s : State) (text : List Byte) (term : Byte) (rest : List Input),
    s.cfg.WellFormed → s.sli.writeOffset = 0 → (∀ b ∈ text, b ∉ s.cfg.terminators) → term ∈ s.cfg.terminators →
    text.length + 3 ≤ s.cfg.capacity → s.inbox = lineInputs (text ++ [term]) ++ rest →
    ∃ t, run (text.length + 1) s = .next t ∧ t.inbox = rest ∧ t.fp = s.fp ∧
      t.sli.activeIndex = s.sli.activeIndex.other ∧ t.sli.writeOffset = 0 ∧ t.sli.messageReady = true ∧
      t.completedLength s.sli.activeIndex = text.length + 3 ∧
      (∀ off (h : off < text.length), t.lbWritten s.sli.activeIndex off = some text[off]) ∧
      t.lbWritten s.sli.activeIndex text.length = some term ∧
      t.lbWritten s.sli.activeIndex (text.length + 1) = some 0x00#8 ∧
      t.lbWritten s.sli.activeIndex (text.length + 2) = some 0x00#8 ∧
      (∀ off, off < s.cfg.capacity → t.lbWritten s.sli.activeIndex.other off = s.lbWritten s.sli.activeIndex.other off) ∧
      t.answers = s.answers ++ List.replicate (text.length + 1) (.pu, okWord 0#8 0#16)

/-- P3 (40_serial_line_intake.md R102): of two lines completed with no SLI.TAKE between them, SLI.TAKE answers the second; the
buffer of the first is the active buffer again. -/
def Obligations.SecondLineOverwritesFirst : Prop :=
  ∀ (s : State) (line1 line2 : List Byte) (term1 term2 : Byte) (rest : List Input),
    s.cfg.WellFormed → s.radioOpen = false → s.sli.writeOffset = 0 →
    (∀ b ∈ line1, b ∉ s.cfg.terminators) → term1 ∈ s.cfg.terminators → line1.length + 3 ≤ s.cfg.capacity →
    (∀ b ∈ line2, b ∉ s.cfg.terminators) → term2 ∈ s.cfg.terminators → line2.length + 3 ≤ s.cfg.capacity →
    s.inbox = lineInputs (line1 ++ [term1]) ++ (lineInputs (line2 ++ [term2]) ++ inputOf .sliTake :: rest) →
    ∃ t, run (line1.length + 1 + (line2.length + 1) + 1) s = .next t ∧
      t.lastAnswer = okWord (BitVec.ofNat 8 (1 - s.sli.activeIndex.index)) (BitVec.ofNat 16 (line2.length + 3)) ∧
      t.sli.activeIndex = s.sli.activeIndex ∧ t.sli.messageReady = false ∧
      (∀ off (h : off < line2.length), t.lbWritten s.sli.activeIndex.other off = some line2[off]) ∧
      t.lbWritten s.sli.activeIndex.other line2.length = some term2

/-- From offset 0, C - 2 ordinary bytes are stored and leave `message_ready` as it was; the next byte, of any value, takes the
overlong path, after which the write cursor is at 0 again (40_serial_line_intake.md R94, R104 b, 70_reset_and_hazards.md R182). -/
def Obligations.OverlongAfterCapacity : Prop :=
  ∀ (s : State) (text : List Byte) (b : Byte) (rest : List Input),
    s.cfg.WellFormed → s.sli.writeOffset = 0 → (∀ c ∈ text, c ∉ s.cfg.terminators) →
    text.length + 2 = s.cfg.capacity → s.inbox = lineInputs (text ++ [b]) ++ rest →
    ∃ u t, run text.length s = .next u ∧ run (text.length + 1) s = .next t ∧
      u.sli.messageReady = s.sli.messageReady ∧ u.sli.writeOffset + 2 = s.cfg.capacity ∧
      (∀ off (h : off < text.length), u.lbWritten s.sli.activeIndex off = some text[off]) ∧
      t.inbox = rest ∧ t.sli.lb = u.sli.lb ∧ t.sli.activeIndex = s.sli.activeIndex ∧ t.sli.writeOffset = 0 ∧
      t.sli.messageReady = true ∧ t.completedLength s.sli.activeIndex.other = 1 ∧
      t.completedLength s.sli.activeIndex = s.completedLength s.sli.activeIndex

/-- The initialising commands establish the units' invariants from any state (10_state.md R22, R23, R32, R34, 41_frame_pool.md R114,
R123, 40_serial_line_intake.md R103). -/
def Obligations.InitEstablishesInvariants : Prop :=
  ∀ s : State, s.port = .pf → s.cfg.WellFormed →
    (∃ t, exec .sliInit s = .next t ∧ Framed t) ∧ (∃ t, exec .fpInit s = .next t ∧ PoolOk t ∧ WindowCrc t) ∧
    ∃ t, exec .fpReset s = .next t ∧ PoolOk t ∧ WindowCrc t

/-- Every step keeps the framing invariant (10_state.md R22, R23, 40_serial_line_intake.md R103). -/
def Obligations.FramingKept : Prop := ∀ s t : State, Framed s → step s = .next t → Framed t

/-- The view SLI.TAKE hands out is the newest message, and stays (20_memory.md R59, 40_serial_line_intake.md R103): where the framing
invariant holds and the recorded length is 3 or more, the buffer it answers holds a message of that length; a terminator-path SLI.BYTE
puts the message it completes, with its length, into what is then the non-active buffer; and every step leaves the bytes of the
non-active buffer as they are, while only a terminator-path SLI.BYTE or SLI.INIT changes which buffer that is. -/
def Obligations.TakenViewIsMessage : Prop :=
  (∀ s : State, Framed s → s.port = .pf → 3 ≤ s.completedLength s.sli.activeIndex.other →
    ∃ t, exec .sliTake s = .next t ∧ t.sli.lb = s.sli.lb ∧
      t.lastAnswer = okWord (BitVec.ofNat 8 (1 - s.sli.activeIndex.index))
        (BitVec.ofNat 16 (s.completedLength s.sli.activeIndex.other)) ∧
      MessageAt t s.sli.activeIndex.other (s.completedLength s.sli.activeIndex.other)) ∧
  (∀ (s t : State) (b : Byte), Framed s → s.sli.writeOffset + 2 < s.cfg.capacity → b ∈ s.cfg.terminators →
    exec (.sliByte b) s = .next t →
    t.sli.activeIndex.other = s.sli.activeIndex ∧ t.completedLength s.sli.activeIndex = s.sli.writeOffset + 3 ∧
      MessageAt t s.sli.activeIndex (s.sli.writeOffset + 3)) ∧
  ∀ s t : State, step s = .next t →
    (∀ off, off < s.cfg.capacity → t.lbWritten s.sli.activeIndex.other off = s.lbWritten s.sli.activeIndex.other off) ∧
    (t.sli.activeIndex ≠ s.sli.activeIndex → ∃ p w rest, s.inbox = .command p w :: rest ∧
      (decode w = .command .sliInit ∨
        ∃ b, decode w = .command (.sliByte b) ∧ b ∈ s.cfg.terminators ∧ s.sli.writeOffset + 2 < s.cfg.capacity))

/-! ### FramePool, command by command (41_frame_pool.md) -/

/-- FP.INIT (R110): from any state; the slots are not changed; the effect is FP.RESET's. -/
def Obligations.FpInitResult : Prop :=
  decode 0x20000000#32 = .command .fpInit ∧
  ∀ s : State, s.port = .pf →
    exec .fpInit s = .next { s with
      fp := { s.fp with head := 0, tail := 0, freeCount := s.cfg.slots, usedCount := 0, overflow := false }
      answers := s.answers ++ [(.pf, okWord 0#8 0#16)] } ∧
    exec .fpReset s = exec .fpInit s

/-- P7 (R121, R126): FP.RESET from any state gives the start-up values, and a second one changes the pool no further. -/
def Obligations.FpResetResult : Prop :=
  decode 0x2B000000#32 = .command .fpReset ∧
  ∀ s : State, s.port = .pf →
    ∃ t, exec .fpReset s = .next t ∧
      t = { s with
        fp := { s.fp with head := 0, tail := 0, freeCount := s.cfg.slots, usedCount := 0, overflow := false }
        answers := s.answers ++ [(.pf, okWord 0#8 0#16)] } ∧
      ∃ u, exec .fpReset t = .next u ∧ u.fp = t.fp ∧ u.sli = t.sli ∧ u.events = t.events

/-- FP.RESERVE (R111): NONE and the sticky flag when no slot is free; else the handle `head` and no state change. -/
def Obligations.FpReserveResult : Prop :=
  decode 0x21000000#32 = .command .fpReserve ∧
  ∀ s : State, s.port = .pr →
    (s.fp.freeCount = 0 → exec .fpReserve s = .next { s with
      fp := { s.fp with overflow := true }, answers := s.answers ++ [(.pr, 0x10000000#32)] }) ∧
    (s.fp.freeCount ≠ 0 → exec .fpReserve s = .next { s with
      answers := s.answers ++ [(.pr, okWord (BitVec.ofNat 8 s.fp.head) 0#16)] })

/-- FP.FILLB (R112): one payload byte of the slot at `head`; cursors, counters, flags and every other byte are unchanged. An offset
out of range is BAD_INDEX; else no free slot is NO_FREE_SLOT. The premise `head < N` is an invariant of the model (`RangesKept`). -/
def Obligations.FpFillbResult : Prop :=
  (∀ v off, decode (packFields 0x22#8 v off) = .command (.fpFillb v off)) ∧
  (∀ (s : State) (v : Byte) (off : Half), s.port = .pr → s.cfg.payloadBytes ≤ off.toNat →
    exec (.fpFillb v off) s = .fault .badIndex) ∧
  (∀ (s : State) (v : Byte) (off : Half), s.port = .pr → s.fp.head < s.cfg.slots → off.toNat < s.cfg.payloadBytes →
    s.fp.freeCount = 0 → exec (.fpFillb v off) s = .fault .noFreeSlot) ∧
  ∀ (s : State) (v : Byte) (off : Half), s.port = .pr → s.fp.head < s.cfg.slots → off.toNat < s.cfg.payloadBytes →
    s.fp.freeCount ≠ 0 →
    ∃ t, exec (.fpFillb v off) s = .next t ∧
      t = { s with fp := { s.fp with payload := t.fp.payload }, answers := s.answers ++ [(.pr, okWord 0#8 0#16)] } ∧
      ∀ addr, Memory.read t.fp.payload addr =
        if addr = payloadAddr s.cfg s.fp.head off.toNat then some v else Memory.read s.fp.payload addr

/-- FP.SETLEN (R113): the length field of the slot at `head`, not compared with P; nothing else changes. A length that does not
fit the field is BAD_INDEX; else no free slot is NO_FREE_SLOT. The premise `head < N` is an invariant of the model (`RangesKept`). -/
def Obligations.FpSetlenResult : Prop :=
  (∀ len, decode (packFields 0x23#8 0#8 len) = .command (.fpSetlen len)) ∧
  (∀ (s : State) (len : Half), s.port = .pr → 2 ^ s.cfg.lenBits ≤ len.toNat → exec (.fpSetlen len) s = .fault .badIndex) ∧
  (∀ (s : State) (len : Half), s.port = .pr → s.fp.head < s.cfg.slots → len.toNat < 2 ^ s.cfg.lenBits →
    s.fp.freeCount = 0 → exec (.fpSetlen len) s = .fault .noFreeSlot) ∧
  ∀ (s : State) (len : Half), s.port = .pr → s.fp.head < s.cfg.slots → len.toNat < 2 ^ s.cfg.lenBits →
    s.fp.freeCount ≠ 0 →
    ∃ t, exec (.fpSetlen len) s = .next t ∧
      t = { s with fp := { s.fp with length := t.fp.length }, answers := s.answers ++ [(.pr, okWord 0#8 0#16)] } ∧
      ∀ slot, Memory.read t.fp.length slot = if slot = s.fp.head then some len else Memory.read s.fp.length slot

/-- FP.COMMIT (R114): with either flag the verdict is stored in the slot at `head`; with flag 1 `head` moves on modulo N and one slot
passes from free to used; with no free slot either flag is NO_FREE_SLOT; `overflow` and everything else stay. The premise `head < N` is
an invariant of the model (`RangesKept`). -/
def Obligations.FpCommitResult : Prop :=
  (decode 0x24010000#32 = .command (.fpCommit true) ∧ decode 0x24000000#32 = .command (.fpCommit false)) ∧
  ∀ (s : State) (f : Bool), s.port = .pr → s.fp.head < s.cfg.slots →
    (s.fp.freeCount = 0 → exec (.fpCommit f) s = .fault .noFreeSlot) ∧
    (s.fp.freeCount ≠ 0 → ∃ t, exec (.fpCommit f) s = .next t ∧
      t = { s with
        fp := { s.fp with
          crcOk := t.fp.crcOk
          head := if f then (if s.fp.head + 1 = s.cfg.slots then 0 else s.fp.head + 1) else s.fp.head
          freeCount := if f then s.fp.freeCount - 1 else s.fp.freeCount
          usedCount := if f then s.fp.usedCount + 1 else s.fp.usedCount }
        answers := s.answers ++ [(.pr, okWord 0#8 0#16)] } ∧
      ∀ slot, Memory.read t.fp.crcOk slot = if slot = s.fp.head then some f else Memory.read s.fp.crcOk slot)

/-- P6 (R114 with flag 0, R125): an invalid CRC leaves `free_count`, `used_count`, `head`, `tail` and `overflow` unchanged; only
`crc_ok` of the uncommitted slot is written. -/
def Obligations.FpCommitInvalidResult : Prop :=
  decode 0x24000000#32 = .command (.fpCommit false) ∧
  ∀ s : State, s.port = .pr → s.fp.head < s.cfg.slots → s.fp.freeCount ≠ 0 →
    ∃ t, exec (.fpCommit false) s = .next t ∧
      t = { s with fp := { s.fp with crcOk := t.fp.crcOk }, answers := s.answers ++ [(.pr, okWord 0#8 0#16)] } ∧
      ∀ slot, Memory.read t.fp.crcOk slot = if slot = s.fp.head then some false else Memory.read s.fp.crcOk slot

/-- FP.HASDATA (R115): 1 exactly when `used_count` is not 0; no state change; an answer 1 stays true until the foreground's FP.RELEASE,
FP.RESET or FP.INIT. -/
def Obligations.FpHasdataResult : Prop :=
  decode 0x25000000#32 = .command .fpHasdata ∧
  (∀ (s t : State) (i : Instr), exec i s = .next t → s.fp.usedCount ≠ 0 → i ≠ .fpRelease → i ≠ .fpReset → i ≠ .fpInit →
    t.fp.usedCount ≠ 0) ∧
  ∀ s : State, s.port = .pf →
    exec .fpHasdata s = .next { s with
      answers := s.answers ++ [(.pf, okWord (if s.fp.usedCount = 0 then 0#8 else 1#8) 0#16)] }

/-- FP.PEEK (R116): the slot at `tail`, without consuming it; PEEK_EMPTY on an empty pool. -/
def Obligations.FpPeekResult : Prop :=
  decode 0x26000000#32 = .command .fpPeek ∧
  ∀ s : State, s.port = .pf →
    (s.fp.usedCount = 0 → exec .fpPeek s = .fault .peekEmpty) ∧
    (s.fp.usedCount ≠ 0 →
      exec .fpPeek s = .next { s with answers := s.answers ++ [(.pf, okWord (BitVec.ofNat 8 s.fp.tail) 0#16)] })

/-- FP.RDLEN (R117): the fields of any slot, inside the used window or not; a slot that does not exist is BAD_INDEX.
That a field no command has written reads as a free value keyed by its slot, a length cut to LW bits, is the model's choice among
those of U2 (log entry 2, DESIGN CHOICE). -/
def Obligations.FpRdlenResult : Prop :=
  (∀ slot, decode (packFields 0x27#8 slot 0#16) = .command (.fpRdlen slot)) ∧
  (∀ (s : State) (slot : Byte), s.port = .pf → s.cfg.slots ≤ slot.toNat → exec (.fpRdlen slot) s = .fault .badIndex) ∧
  ∀ (s : State) (slot : Byte), s.port = .pf → slot.toNat < s.cfg.slots →
    exec (.fpRdlen slot) s = .next { s with
      answers := s.answers ++ [(.pf, okWord
        (if (Memory.read s.fp.crcOk slot.toNat).getD (Config.unwrittenCrc slot.toNat) then 1#8 else 0#8)
        ((Memory.read s.fp.length slot.toNat).getD
          (BitVec.ofNat 16 (Config.unwrittenLength slot.toNat % 2 ^ s.cfg.lenBits))))] }

/-- FP.READB (R118): one payload byte of any slot, beyond its length or not; a slot or an offset that does not exist is
BAD_INDEX. That a byte no command has written reads as a free value keyed by its location is the model's choice among those of U2
(log entry 2, DESIGN CHOICE). -/
def Obligations.FpReadbResult : Prop :=
  (∀ slot off, decode (packFields 0x28#8 slot off) = .command (.fpReadb slot off)) ∧
  (∀ (s : State) (slot : Byte) (off : Half), s.port = .pf → s.cfg.slots ≤ slot.toNat ∨ s.cfg.payloadBytes ≤ off.toNat →
    exec (.fpReadb slot off) s = .fault .badIndex) ∧
  ∀ (s : State) (slot : Byte) (off : Half), s.port = .pf → slot.toNat < s.cfg.slots → off.toNat < s.cfg.payloadBytes →
    exec (.fpReadb slot off) s = .next { s with
      answers := s.answers ++ [(.pf, okWord
        ((s.payloadWritten slot.toNat off.toNat).getD (Config.unwrittenPayload slot.toNat off.toNat)) 0#16)] }

/-- FP.RELEASE (R119): `tail` moves on modulo N, one slot passes from used to free, in one step; `overflow` is not cleared and no
slot is changed; RELEASE_EMPTY on an empty pool. The premise `tail < N` is an invariant of the model (`RangesKept`). -/
def Obligations.FpReleaseResult : Prop :=
  decode 0x29000000#32 = .command .fpRelease ∧
  ∀ s : State, s.port = .pf → s.fp.tail < s.cfg.slots →
    (s.fp.usedCount = 0 → exec .fpRelease s = .fault .releaseEmpty) ∧
    (s.fp.usedCount ≠ 0 → exec .fpRelease s = .next { s with
      fp := { s.fp with
        tail := if s.fp.tail + 1 = s.cfg.slots then 0 else s.fp.tail + 1
        freeCount := s.fp.freeCount + 1, usedCount := s.fp.usedCount - 1 }
      answers := s.answers ++ [(.pf, okWord 0#8 0#16)] })

/-- FP.OVF (R120): the flag, which reading does not clear. -/
def Obligations.FpOvfResult : Prop :=
  decode 0x2A000000#32 = .command .fpOvf ∧
  ∀ s : State, s.port = .pf →
    exec .fpOvf s = .next { s with answers := s.answers ++ [(.pf, okWord (if s.fp.overflow then 1#8 else 0#8) 0#16)] }

/-! ### FramePool, its properties -/

/-- P4 (10_state.md R32, R34, 41_frame_pool.md R123): FP.INIT and FP.RESET establish `free_count + used_count = N`, `head = (tail +
used_count) mod N` and the ranges they imply; every step keeps them, and so does the block going on after a FAULT answer. That
the block goes on through `advance` beside the faulting `step` is the model's reading (log entry 8, DEDUCED from
60_exceptions.md R151). -/
def Obligations.PoolConserved : Prop :=
  (∀ s t : State, 1 ≤ s.cfg.slots → exec .fpInit s = .next t ∨ exec .fpReset s = .next t → PoolOk t) ∧
  (∀ s t : State, PoolOk s → step s = .next t → PoolOk t) ∧
  ∀ s : State, PoolOk s → PoolOk (advance s)

/-- Every slot of the used window has `crc_ok = 1`, and every step keeps that (41_frame_pool.md R114). -/
def Obligations.WindowCrcKept : Prop := ∀ s t : State, PoolOk s → WindowCrc s → step s = .next t → WindowCrc t

/-- FIFO order (41_frame_pool.md R127, 20_memory.md R60): FP.COMMIT 1 puts slot `head` at the end of the used window, FP.RELEASE
takes its first slot, FP.PEEK answers its first slot. -/
def Obligations.WindowIsFifo : Prop :=
  (∀ s t : State, PoolOk s → exec (.fpCommit true) s = .next t → t.window = s.window ++ [s.fp.head]) ∧
  (∀ s t : State, PoolOk s → exec .fpRelease s = .next t → s.window = s.fp.tail :: t.window) ∧
  ∀ s t : State, PoolOk s → s.cfg.slots ≤ 256 → exec .fpPeek s = .next t →
    ∃ slot, s.window.head? = some slot ∧ t.lastAnswer = okWord (BitVec.ofNat 8 slot) 0#16

/-- No command changes a byte or a field of a slot of the used window (20_memory.md R60, 10_state.md R34): a slot FP.PEEK answered
is stable until it leaves the window. -/
def Obligations.WindowSlotsStable : Prop :=
  ∀ (s t : State) (i : Instr), PoolOk s → exec i s = .next t → ∀ slot ∈ s.window,
    (∀ off, off < s.cfg.payloadBytes → t.payloadWritten slot off = s.payloadWritten slot off) ∧
    Memory.read t.fp.length slot = Memory.read s.fp.length slot ∧
    Memory.read t.fp.crcOk slot = Memory.read s.fp.crcOk slot

/-- P5 for every N (41_frame_pool.md R111, R114, R124): from an empty pool, N reserved and committed frames fill it with
`overflow` as it was and `head` where it started, every one of these commands answered OK, and the (N+1)-th FP.RESERVE answers NONE
and sets `overflow`. -/
def Obligations.OverflowAfterCapacityCommits : Prop :=
  ∀ (s : State) (rest : List Input), s.cfg.WellFormed → PoolOk s → s.fp.usedCount = 0 →
    s.inbox = (List.replicate s.cfg.slots [inputOf .fpReserve, inputOf (.fpCommit true)]).flatten ++
      inputOf .fpReserve :: rest →
    ∃ u t, run (2 * s.cfg.slots) s = .next u ∧ run (2 * s.cfg.slots + 1) s = .next t ∧
      u.fp.freeCount = 0 ∧ u.fp.usedCount = s.cfg.slots ∧ u.fp.head = s.fp.head ∧ u.fp.overflow = s.fp.overflow ∧
      (∀ a ∈ u.answers.drop s.answers.length, a.2.toNat < 2 ^ 28) ∧
      t.fp = { u.fp with overflow := true } ∧ t.lastAnswer = 0x10000000#32 ∧ t.inbox = rest

/-! ### Rules of the whole machine -/

/-- The "set by" columns of 10_state.md R20 and R29, with R21, R24, R30, R31, R33: the commands named are the only ones that
change an element. -/
def Obligations.OnlyNamedCommandsWrite : Prop :=
  ∀ (i : Instr) (s t : State), exec i s = .next t →
    (i ≠ .sliInit → (∀ b, i ≠ .sliByte b) →
      t.sli.activeIndex = s.sli.activeIndex ∧ t.sli.writeOffset = s.sli.writeOffset ∧
      t.sli.completedLength0 = s.sli.completedLength0 ∧ t.sli.completedLength1 = s.sli.completedLength1) ∧
    ((∀ b, i ≠ .sliByte b) → t.sli.lb = s.sli.lb) ∧
    (i ≠ .sliInit → (∀ b, i ≠ .sliByte b) → i ≠ .sliTake → i ≠ .sliReset → t.sli.messageReady = s.sli.messageReady) ∧
    (i ≠ .fpInit → i ≠ .fpReset → i ≠ .fpCommit true → t.fp.head = s.fp.head) ∧
    (i ≠ .fpInit → i ≠ .fpReset → i ≠ .fpRelease → t.fp.tail = s.fp.tail) ∧
    (i ≠ .fpInit → i ≠ .fpReset → i ≠ .fpCommit true → i ≠ .fpRelease →
      t.fp.freeCount = s.fp.freeCount ∧ t.fp.usedCount = s.fp.usedCount) ∧
    (i ≠ .fpInit → i ≠ .fpReset → i ≠ .fpReserve → t.fp.overflow = s.fp.overflow) ∧
    ((∀ v off, i ≠ .fpFillb v off) → t.fp.payload = s.fp.payload) ∧
    ((∀ len, i ≠ .fpSetlen len) → t.fp.length = s.fp.length) ∧
    ((∀ f, i ≠ .fpCommit f) → t.fp.crcOk = s.fp.crcOk) ∧
    (i ≠ .sliReset → t.events = s.events)

/-- `overflow` is sticky (10_state.md R33): a step sets it only by an FP.RESERVE that finds no free slot, and clears it only by
FP.INIT or FP.RESET. -/
def Obligations.OverflowIsSticky : Prop :=
  ∀ s t : State, step s = .next t → t.fp.overflow ≠ s.fp.overflow →
    ∃ p w rest, s.inbox = .command p w :: rest ∧
      ((t.fp.overflow = true ∧ decode w = .command .fpReserve ∧ s.fp.freeCount = 0) ∨
       (t.fp.overflow = false ∧ (decode w = .command .fpInit ∨ decode w = .command .fpReset)))

/-- The two units share no state (00_scope.md R2, 10_state.md R20, R29): a command of one unit leaves the other as it is, and what
it does to its own unit, its answer and its events do not depend on the other. -/
def Obligations.UnitsAreIndependent : Prop :=
  ∀ (i : Instr) (s t : State), exec i s = .next t →
    (i.isSli = true → t.fp = s.fp ∧
      ∀ fp, exec i { s with fp := fp } = .next { t with fp := fp }) ∧
    (i.isSli = false → t.sli = s.sli ∧
      ∀ sli, exec i { s with sli := sli } = .next { t with sli := sli })

/-- Nesting of the two handlers has no effect on what either unit reaches (60_exceptions.md R143 b, R154): a PU command and a PR
command that complete in one order complete in the other, with the same units, events and answers but for their order. -/
def Obligations.HandlersCommute : Prop :=
  ∀ (s t : State) (w1 w2 : Word) (rest : List Input), s.inbox = .command .pu w1 :: .command .pr w2 :: rest →
    run 2 s = .next t →
    ∃ t' r1 r2, run 2 { s with inbox := .command .pr w2 :: .command .pu w1 :: rest } = .next t' ∧
      t'.sli = t.sli ∧ t'.fp = t.fp ∧ t'.events = t.events ∧ t'.radioOpen = t.radioOpen ∧ t'.inbox = t.inbox ∧
      t.answers = s.answers ++ [(.pu, r1), (.pr, r2)] ∧ t'.answers = s.answers ++ [(.pr, r2), (.pu, r1)]

/-- The seven reading commands change no state and repeating one gives the same answer, and so does an FP.RESERVE that answers OK
(20_memory.md R56). -/
def Obligations.ReadsAreIdempotent : Prop :=
  ∀ (i : Instr) (s t : State), exec i s = .next t →
    (i = .sliHas ∨ (∃ k off, i = .sliRead k off) ∨ i = .fpHasdata ∨ i = .fpPeek ∨ (∃ slot, i = .fpRdlen slot) ∨
      (∃ slot off, i = .fpReadb slot off) ∨ i = .fpOvf ∨ (i = .fpReserve ∧ s.fp.freeCount ≠ 0)) →
    ∃ r, t = { s with answers := s.answers ++ [(s.port, r)] } ∧
      exec i t = .next { s with answers := s.answers ++ [(s.port, r), (s.port, r)] }

/-- No command changes a parameter (00_scope.md R15). -/
def Obligations.ConfigurationIsFixed : Prop := ∀ s t : State, step s = .next t → t.cfg = s.cfg

/-- Every command that completes gives exactly one answer, on the port it arrived on (30_encoding.md R73). -/
def Obligations.OneAnswerPerCommand : Prop :=
  ∀ (s t : State) (p : Port) (w : Word) (rest : List Input), s.inbox = .command p w :: rest → step s = .next t →
    ∃ r, t.answers = s.answers ++ [(p, r)] ∧ t.inbox = rest

/-- After power-on every element of both units is within the range 10_state.md R20 and R29 state for it, the two counters of the pool
among them, and nothing has been written to either memory. The values are the model's choice (log entries 1 and 2), and so is the
configuration of `State.reset` (log entry 3). -/
def Obligations.PowerOnRanges : Prop :=
  (∀ cfg : Config, cfg.WellFormed → Fresh (State.powerOn cfg)) ∧ Fresh State.reset

/-- Every step keeps `write_offset`, both recorded lengths, `head` and `tail` in their ranges, from any state in which they are
(10_state.md R20, R22, R29); and it keeps `free_count` and `used_count` in 0..N on a pool with its invariants. On a pool no FP.INIT has
initialised the counters may leave 0..N (log entry 7, DEDUCED). -/
def Obligations.RangesKept : Prop :=
  (∀ s t : State, Ranged s → step s = .next t → Ranged t) ∧
  ∀ s t : State, PoolOk s → step s = .next t → t.fp.freeCount ≤ t.cfg.slots ∧ t.fp.usedCount ≤ t.cfg.slots

/-- Every step keeps memory inside its two spaces (20_memory.md R50 to R52) and in canonical form; the form, strictly rising keys, and
the key of each location are the model's choice (log entry 12, DESIGN CHOICE). -/
def Obligations.MemoryKept : Prop := ∀ s t : State, MemoryOk s → step s = .next t → MemoryOk t

/-! ### A correct host (60_exceptions.md R149, 70_reset_and_hazards.md R187) -/

/-- A command of a correct host completes, and what the host knows stays true (60_exceptions.md R149, 70_reset_and_hazards.md R171,
R172, R178, R180). -/
def Obligations.DutifulCommandCompletes : Prop :=
  ∀ (d : HostDuty) (s : State) (i : Instr) (rest : List Input), Agrees d s → s.inbox = inputOf i :: rest →
    d.permits i = true → i.WellFormed s.cfg = true →
    ∃ t, step s = .next t ∧ t.inbox = rest ∧ Agrees (d.after t.lastAnswer i) t

/-- The coordinator of R160 to R162 is a correct host: wherever its loop stands, its next command completes, what it relies on holds
again where the loop goes on, and no command of a handler takes that away (60_exceptions.md R149, R160, R161, R162, 70_reset_and_hazards.md
R172, R178). How many bytes it reads is the model's choice (log entry 10). -/
def Obligations.CoordinatorCommandCompletes : Prop :=
  (∀ (d : HostDuty) (s : State) (c : Phase) (rest : List Input), Agrees d s → d.sliUp = true → d.fpUp = true →
    d.inHandler = false → c.Knows s.cfg d → s.inbox = inputOf c.command :: rest →
    ∃ t, step s = .next t ∧ t.inbox = rest ∧ Agrees (d.after t.lastAnswer c.command) t ∧
      (c.after s.cfg t.lastAnswer).Knows t.cfg (d.after t.lastAnswer c.command)) ∧
  ∀ (cfg : Config) (d : HostDuty) (c : Phase) (w : Word) (i : Instr), i.port ≠ .pf → c.Knows cfg d → c.Knows cfg (d.after w i)

/-- A run from power-on driven by a correct host never faults and is never refused, in any configuration and for any inputs: a
contract violation cannot occur if the coordinator is implemented correctly (60_exceptions.md R149, R151). The power-on values are
those of log entry 1: any values within the ranges of their elements. -/
def Obligations.DutifulRunNeverStops : Prop :=
  ∀ (cfg : Config) (inbox : List Input) (n : Nat), cfg.WellFormed →
    Dutiful n HostDuty.start { State.powerOn cfg with inbox := inbox } →
    ∃ t, run n { State.powerOn cfg with inbox := inbox } = .next t
end

