-- ==== Sys2Proof/Laws/Encoding.lean ====
section
/-! SUPPORT. The fields of a packed word, and a word as its packed fields (30_encoding.md R70). -/

namespace Sys2Proof

@[simp] theorem opField_packFields (op a : Byte) (x : Half) : opField (packFields op a x) = op := by
  apply BitVec.eq_of_getLsbD_eq; intro i hi
  simp only [opField, packFields, BitVec.getLsbD_extractLsb', BitVec.getLsbD_append]
  have h1 : ¬ (24 + i < 16) := by omega
  have h2 : ¬ (24 + i - 16 < 8) := by omega
  simp [hi, h1, h2, show 24 + i - 16 - 8 = i by omega]

@[simp] theorem aField_packFields (op a : Byte) (x : Half) : aField (packFields op a x) = a := by
  apply BitVec.eq_of_getLsbD_eq; intro i hi
  simp only [aField, packFields, BitVec.getLsbD_extractLsb', BitVec.getLsbD_append]
  have h1 : ¬ (16 + i < 16) := by omega
  have h2 : 16 + i - 16 < 8 := by omega
  simp [hi, h1, show 16 + i - 16 = i by omega]

@[simp] theorem xField_packFields (op a : Byte) (x : Half) : xField (packFields op a x) = x := by
  apply BitVec.eq_of_getLsbD_eq; intro i hi
  simp only [xField, packFields, BitVec.getLsbD_extractLsb', BitVec.getLsbD_append]
  simp [hi]

/-- A word is its three fields. -/
theorem packFields_fields (w : Word) : packFields (opField w) (aField w) (xField w) = w := by
  apply BitVec.eq_of_getLsbD_eq; intro i hi
  simp only [opField, aField, xField, packFields, BitVec.getLsbD_extractLsb', BitVec.getLsbD_append]
  by_cases h1 : i < 16
  · simp [h1]
  · by_cases h2 : i < 24
    · simp [h1, show i - 16 < 8 by omega, show 16 + (i - 16) = i by omega]
    · simp [h1, show ¬ i - 16 < 8 by omega, show i - 16 - 8 < 8 by omega, show 24 + (i - 16 - 8) = i by omega]

/-- Packed words are equal when their fields are. -/
theorem packFields_inj {op op' a a' : Byte} {x x' : Half} :
    packFields op a x = packFields op' a' x' ↔ op = op' ∧ a = a' ∧ x = x' := by
  constructor
  · intro h
    exact ⟨by simpa using congrArg opField h, by simpa using congrArg aField h, by simpa using congrArg xField h⟩
  · rintro ⟨rfl, rfl, rfl⟩; rfl

/-- A mask applies field by field (30_encoding.md R71). -/
theorem packFields_and (op a op' a' : Byte) (x x' : Half) :
    packFields op a x &&& packFields op' a' x' = packFields (op &&& op') (a &&& a') (x &&& x') := by
  apply BitVec.eq_of_getLsbD_eq; intro i hi
  simp only [packFields, BitVec.getLsbD_and, BitVec.getLsbD_append]
  split_ifs <;> rfl

end Sys2Proof
end

