-- ==== Sys2Proof/Laws/State.lean ====
section
/-! SUPPORT. One lemma per field per update of `State`: no later proof unfolds a record update. -/

namespace Sys2Proof.Machine

variable (s : State)


/-! `setReady` -/

@[simp] theorem setReady_cfg (b : Bool) : (s.setReady b).cfg = s.cfg := rfl
@[simp] theorem setReady_sli_activeIndex (b : Bool) : (s.setReady b).sli.activeIndex = s.sli.activeIndex := rfl
@[simp] theorem setReady_sli_writeOffset (b : Bool) : (s.setReady b).sli.writeOffset = s.sli.writeOffset := rfl
@[simp] theorem setReady_sli_completedLength0 (b : Bool) : (s.setReady b).sli.completedLength0 = s.sli.completedLength0 := rfl
@[simp] theorem setReady_sli_completedLength1 (b : Bool) : (s.setReady b).sli.completedLength1 = s.sli.completedLength1 := rfl
@[simp] theorem setReady_sli_messageReady (b : Bool) : (s.setReady b).sli.messageReady = b := rfl
@[simp] theorem setReady_sli_lb (b : Bool) : (s.setReady b).sli.lb = s.sli.lb := rfl
@[simp] theorem setReady_fp (b : Bool) : (s.setReady b).fp = s.fp := rfl
@[simp] theorem setReady_port (b : Bool) : (s.setReady b).port = s.port := rfl
@[simp] theorem setReady_inbox (b : Bool) : (s.setReady b).inbox = s.inbox := rfl
@[simp] theorem setReady_answers (b : Bool) : (s.setReady b).answers = s.answers := rfl
@[simp] theorem setReady_events (b : Bool) : (s.setReady b).events = s.events := rfl
@[simp] theorem setReady_radioOpen (b : Bool) : (s.setReady b).radioOpen = s.radioOpen := rfl

/-! `setOverflow` -/

@[simp] theorem setOverflow_cfg (b : Bool) : (s.setOverflow b).cfg = s.cfg := rfl
@[simp] theorem setOverflow_sli (b : Bool) : (s.setOverflow b).sli = s.sli := rfl
@[simp] theorem setOverflow_fp_head (b : Bool) : (s.setOverflow b).fp.head = s.fp.head := rfl
@[simp] theorem setOverflow_fp_tail (b : Bool) : (s.setOverflow b).fp.tail = s.fp.tail := rfl
@[simp] theorem setOverflow_fp_freeCount (b : Bool) : (s.setOverflow b).fp.freeCount = s.fp.freeCount := rfl
@[simp] theorem setOverflow_fp_usedCount (b : Bool) : (s.setOverflow b).fp.usedCount = s.fp.usedCount := rfl
@[simp] theorem setOverflow_fp_overflow (b : Bool) : (s.setOverflow b).fp.overflow = b := rfl
@[simp] theorem setOverflow_fp_payload (b : Bool) : (s.setOverflow b).fp.payload = s.fp.payload := rfl
@[simp] theorem setOverflow_fp_length (b : Bool) : (s.setOverflow b).fp.length = s.fp.length := rfl
@[simp] theorem setOverflow_fp_crcOk (b : Bool) : (s.setOverflow b).fp.crcOk = s.fp.crcOk := rfl
@[simp] theorem setOverflow_port (b : Bool) : (s.setOverflow b).port = s.port := rfl
@[simp] theorem setOverflow_inbox (b : Bool) : (s.setOverflow b).inbox = s.inbox := rfl
@[simp] theorem setOverflow_answers (b : Bool) : (s.setOverflow b).answers = s.answers := rfl
@[simp] theorem setOverflow_events (b : Bool) : (s.setOverflow b).events = s.events := rfl
@[simp] theorem setOverflow_radioOpen (b : Bool) : (s.setOverflow b).radioOpen = s.radioOpen := rfl

/-! `setActive` -/

@[simp] theorem setActive_cfg (k : Buf) : (s.setActive k).cfg = s.cfg := rfl
@[simp] theorem setActive_sli_activeIndex (k : Buf) : (s.setActive k).sli.activeIndex = k := rfl
@[simp] theorem setActive_sli_writeOffset (k : Buf) : (s.setActive k).sli.writeOffset = s.sli.writeOffset := rfl
@[simp] theorem setActive_sli_completedLength0 (k : Buf) : (s.setActive k).sli.completedLength0 = s.sli.completedLength0 := rfl
@[simp] theorem setActive_sli_completedLength1 (k : Buf) : (s.setActive k).sli.completedLength1 = s.sli.completedLength1 := rfl
@[simp] theorem setActive_sli_messageReady (k : Buf) : (s.setActive k).sli.messageReady = s.sli.messageReady := rfl
@[simp] theorem setActive_sli_lb (k : Buf) : (s.setActive k).sli.lb = s.sli.lb := rfl
@[simp] theorem setActive_fp (k : Buf) : (s.setActive k).fp = s.fp := rfl
@[simp] theorem setActive_port (k : Buf) : (s.setActive k).port = s.port := rfl
@[simp] theorem setActive_inbox (k : Buf) : (s.setActive k).inbox = s.inbox := rfl
@[simp] theorem setActive_answers (k : Buf) : (s.setActive k).answers = s.answers := rfl
@[simp] theorem setActive_events (k : Buf) : (s.setActive k).events = s.events := rfl
@[simp] theorem setActive_radioOpen (k : Buf) : (s.setActive k).radioOpen = s.radioOpen := rfl

/-! `setOffset` -/

@[simp] theorem setOffset_cfg (w : Nat) : (s.setOffset w).cfg = s.cfg := rfl
@[simp] theorem setOffset_sli_activeIndex (w : Nat) : (s.setOffset w).sli.activeIndex = s.sli.activeIndex := rfl
@[simp] theorem setOffset_sli_writeOffset (w : Nat) : (s.setOffset w).sli.writeOffset = w := rfl
@[simp] theorem setOffset_sli_completedLength0 (w : Nat) : (s.setOffset w).sli.completedLength0 = s.sli.completedLength0 := rfl
@[simp] theorem setOffset_sli_completedLength1 (w : Nat) : (s.setOffset w).sli.completedLength1 = s.sli.completedLength1 := rfl
@[simp] theorem setOffset_sli_messageReady (w : Nat) : (s.setOffset w).sli.messageReady = s.sli.messageReady := rfl
@[simp] theorem setOffset_sli_lb (w : Nat) : (s.setOffset w).sli.lb = s.sli.lb := rfl
@[simp] theorem setOffset_fp (w : Nat) : (s.setOffset w).fp = s.fp := rfl
@[simp] theorem setOffset_port (w : Nat) : (s.setOffset w).port = s.port := rfl
@[simp] theorem setOffset_inbox (w : Nat) : (s.setOffset w).inbox = s.inbox := rfl
@[simp] theorem setOffset_answers (w : Nat) : (s.setOffset w).answers = s.answers := rfl
@[simp] theorem setOffset_events (w : Nat) : (s.setOffset w).events = s.events := rfl
@[simp] theorem setOffset_radioOpen (w : Nat) : (s.setOffset w).radioOpen = s.radioOpen := rfl

/-! `lbWrite` -/

@[simp] theorem lbWrite_cfg (k : Buf) (off : Nat) (v : Byte) : (s.lbWrite k off v).cfg = s.cfg := rfl
@[simp] theorem lbWrite_sli_activeIndex (k : Buf) (off : Nat) (v : Byte) : (s.lbWrite k off v).sli.activeIndex = s.sli.activeIndex := rfl
@[simp] theorem lbWrite_sli_writeOffset (k : Buf) (off : Nat) (v : Byte) : (s.lbWrite k off v).sli.writeOffset = s.sli.writeOffset := rfl
@[simp] theorem lbWrite_sli_completedLength0 (k : Buf) (off : Nat) (v : Byte) : (s.lbWrite k off v).sli.completedLength0 = s.sli.completedLength0 := rfl
@[simp] theorem lbWrite_sli_completedLength1 (k : Buf) (off : Nat) (v : Byte) : (s.lbWrite k off v).sli.completedLength1 = s.sli.completedLength1 := rfl
@[simp] theorem lbWrite_sli_messageReady (k : Buf) (off : Nat) (v : Byte) : (s.lbWrite k off v).sli.messageReady = s.sli.messageReady := rfl
@[simp] theorem lbWrite_sli_lb (k : Buf) (off : Nat) (v : Byte) : (s.lbWrite k off v).sli.lb = Memory.write s.sli.lb (lbAddr s.cfg k off) v := rfl
@[simp] theorem lbWrite_fp (k : Buf) (off : Nat) (v : Byte) : (s.lbWrite k off v).fp = s.fp := rfl
@[simp] theorem lbWrite_port (k : Buf) (off : Nat) (v : Byte) : (s.lbWrite k off v).port = s.port := rfl
@[simp] theorem lbWrite_inbox (k : Buf) (off : Nat) (v : Byte) : (s.lbWrite k off v).inbox = s.inbox := rfl
@[simp] theorem lbWrite_answers (k : Buf) (off : Nat) (v : Byte) : (s.lbWrite k off v).answers = s.answers := rfl
@[simp] theorem lbWrite_events (k : Buf) (off : Nat) (v : Byte) : (s.lbWrite k off v).events = s.events := rfl
@[simp] theorem lbWrite_radioOpen (k : Buf) (off : Nat) (v : Byte) : (s.lbWrite k off v).radioOpen = s.radioOpen := rfl

/-! `payloadWrite` -/

@[simp] theorem payloadWrite_cfg (slot off : Nat) (v : Byte) : (s.payloadWrite slot off v).cfg = s.cfg := rfl
@[simp] theorem payloadWrite_sli (slot off : Nat) (v : Byte) : (s.payloadWrite slot off v).sli = s.sli := rfl
@[simp] theorem payloadWrite_fp_head (slot off : Nat) (v : Byte) : (s.payloadWrite slot off v).fp.head = s.fp.head := rfl
@[simp] theorem payloadWrite_fp_tail (slot off : Nat) (v : Byte) : (s.payloadWrite slot off v).fp.tail = s.fp.tail := rfl
@[simp] theorem payloadWrite_fp_freeCount (slot off : Nat) (v : Byte) : (s.payloadWrite slot off v).fp.freeCount = s.fp.freeCount := rfl
@[simp] theorem payloadWrite_fp_usedCount (slot off : Nat) (v : Byte) : (s.payloadWrite slot off v).fp.usedCount = s.fp.usedCount := rfl
@[simp] theorem payloadWrite_fp_overflow (slot off : Nat) (v : Byte) : (s.payloadWrite slot off v).fp.overflow = s.fp.overflow := rfl
@[simp] theorem payloadWrite_fp_payload (slot off : Nat) (v : Byte) : (s.payloadWrite slot off v).fp.payload = Memory.write s.fp.payload (payloadAddr s.cfg slot off) v := rfl
@[simp] theorem payloadWrite_fp_length (slot off : Nat) (v : Byte) : (s.payloadWrite slot off v).fp.length = s.fp.length := rfl
@[simp] theorem payloadWrite_fp_crcOk (slot off : Nat) (v : Byte) : (s.payloadWrite slot off v).fp.crcOk = s.fp.crcOk := rfl
@[simp] theorem payloadWrite_port (slot off : Nat) (v : Byte) : (s.payloadWrite slot off v).port = s.port := rfl
@[simp] theorem payloadWrite_inbox (slot off : Nat) (v : Byte) : (s.payloadWrite slot off v).inbox = s.inbox := rfl
@[simp] theorem payloadWrite_answers (slot off : Nat) (v : Byte) : (s.payloadWrite slot off v).answers = s.answers := rfl
@[simp] theorem payloadWrite_events (slot off : Nat) (v : Byte) : (s.payloadWrite slot off v).events = s.events := rfl
@[simp] theorem payloadWrite_radioOpen (slot off : Nat) (v : Byte) : (s.payloadWrite slot off v).radioOpen = s.radioOpen := rfl

/-! `lengthWrite` -/

@[simp] theorem lengthWrite_cfg (slot : Nat) (len : Half) : (s.lengthWrite slot len).cfg = s.cfg := rfl
@[simp] theorem lengthWrite_sli (slot : Nat) (len : Half) : (s.lengthWrite slot len).sli = s.sli := rfl
@[simp] theorem lengthWrite_fp_head (slot : Nat) (len : Half) : (s.lengthWrite slot len).fp.head = s.fp.head := rfl
@[simp] theorem lengthWrite_fp_tail (slot : Nat) (len : Half) : (s.lengthWrite slot len).fp.tail = s.fp.tail := rfl
@[simp] theorem lengthWrite_fp_freeCount (slot : Nat) (len : Half) : (s.lengthWrite slot len).fp.freeCount = s.fp.freeCount := rfl
@[simp] theorem lengthWrite_fp_usedCount (slot : Nat) (len : Half) : (s.lengthWrite slot len).fp.usedCount = s.fp.usedCount := rfl
@[simp] theorem lengthWrite_fp_overflow (slot : Nat) (len : Half) : (s.lengthWrite slot len).fp.overflow = s.fp.overflow := rfl
@[simp] theorem lengthWrite_fp_payload (slot : Nat) (len : Half) : (s.lengthWrite slot len).fp.payload = s.fp.payload := rfl
@[simp] theorem lengthWrite_fp_length (slot : Nat) (len : Half) : (s.lengthWrite slot len).fp.length = Memory.write s.fp.length slot len := rfl
@[simp] theorem lengthWrite_fp_crcOk (slot : Nat) (len : Half) : (s.lengthWrite slot len).fp.crcOk = s.fp.crcOk := rfl
@[simp] theorem lengthWrite_port (slot : Nat) (len : Half) : (s.lengthWrite slot len).port = s.port := rfl
@[simp] theorem lengthWrite_inbox (slot : Nat) (len : Half) : (s.lengthWrite slot len).inbox = s.inbox := rfl
@[simp] theorem lengthWrite_answers (slot : Nat) (len : Half) : (s.lengthWrite slot len).answers = s.answers := rfl
@[simp] theorem lengthWrite_events (slot : Nat) (len : Half) : (s.lengthWrite slot len).events = s.events := rfl
@[simp] theorem lengthWrite_radioOpen (slot : Nat) (len : Half) : (s.lengthWrite slot len).radioOpen = s.radioOpen := rfl

/-! `crcWrite` -/

@[simp] theorem crcWrite_cfg (slot : Nat) (f : Bool) : (s.crcWrite slot f).cfg = s.cfg := rfl
@[simp] theorem crcWrite_sli (slot : Nat) (f : Bool) : (s.crcWrite slot f).sli = s.sli := rfl
@[simp] theorem crcWrite_fp_head (slot : Nat) (f : Bool) : (s.crcWrite slot f).fp.head = s.fp.head := rfl
@[simp] theorem crcWrite_fp_tail (slot : Nat) (f : Bool) : (s.crcWrite slot f).fp.tail = s.fp.tail := rfl
@[simp] theorem crcWrite_fp_freeCount (slot : Nat) (f : Bool) : (s.crcWrite slot f).fp.freeCount = s.fp.freeCount := rfl
@[simp] theorem crcWrite_fp_usedCount (slot : Nat) (f : Bool) : (s.crcWrite slot f).fp.usedCount = s.fp.usedCount := rfl
@[simp] theorem crcWrite_fp_overflow (slot : Nat) (f : Bool) : (s.crcWrite slot f).fp.overflow = s.fp.overflow := rfl
@[simp] theorem crcWrite_fp_payload (slot : Nat) (f : Bool) : (s.crcWrite slot f).fp.payload = s.fp.payload := rfl
@[simp] theorem crcWrite_fp_length (slot : Nat) (f : Bool) : (s.crcWrite slot f).fp.length = s.fp.length := rfl
@[simp] theorem crcWrite_fp_crcOk (slot : Nat) (f : Bool) : (s.crcWrite slot f).fp.crcOk = Memory.write s.fp.crcOk slot f := rfl
@[simp] theorem crcWrite_port (slot : Nat) (f : Bool) : (s.crcWrite slot f).port = s.port := rfl
@[simp] theorem crcWrite_inbox (slot : Nat) (f : Bool) : (s.crcWrite slot f).inbox = s.inbox := rfl
@[simp] theorem crcWrite_answers (slot : Nat) (f : Bool) : (s.crcWrite slot f).answers = s.answers := rfl
@[simp] theorem crcWrite_events (slot : Nat) (f : Bool) : (s.crcWrite slot f).events = s.events := rfl
@[simp] theorem crcWrite_radioOpen (slot : Nat) (f : Bool) : (s.crcWrite slot f).radioOpen = s.radioOpen := rfl

/-! `emptyPool` -/

@[simp] theorem emptyPool_cfg : (s.emptyPool).cfg = s.cfg := rfl
@[simp] theorem emptyPool_sli : (s.emptyPool).sli = s.sli := rfl
@[simp] theorem emptyPool_fp_head : (s.emptyPool).fp.head = 0 := rfl
@[simp] theorem emptyPool_fp_tail : (s.emptyPool).fp.tail = 0 := rfl
@[simp] theorem emptyPool_fp_freeCount : (s.emptyPool).fp.freeCount = s.cfg.slots := rfl
@[simp] theorem emptyPool_fp_usedCount : (s.emptyPool).fp.usedCount = 0 := rfl
@[simp] theorem emptyPool_fp_overflow : (s.emptyPool).fp.overflow = false := rfl
@[simp] theorem emptyPool_fp_payload : (s.emptyPool).fp.payload = s.fp.payload := rfl
@[simp] theorem emptyPool_fp_length : (s.emptyPool).fp.length = s.fp.length := rfl
@[simp] theorem emptyPool_fp_crcOk : (s.emptyPool).fp.crcOk = s.fp.crcOk := rfl
@[simp] theorem emptyPool_port : (s.emptyPool).port = s.port := rfl
@[simp] theorem emptyPool_inbox : (s.emptyPool).inbox = s.inbox := rfl
@[simp] theorem emptyPool_answers : (s.emptyPool).answers = s.answers := rfl
@[simp] theorem emptyPool_events : (s.emptyPool).events = s.events := rfl
@[simp] theorem emptyPool_radioOpen : (s.emptyPool).radioOpen = s.radioOpen := rfl

/-! `advanceHead` -/

@[simp] theorem advanceHead_cfg : (advanceHead s).cfg = s.cfg := rfl
@[simp] theorem advanceHead_sli : (advanceHead s).sli = s.sli := rfl
@[simp] theorem advanceHead_fp_head : (advanceHead s).fp.head = nextSlot s.cfg s.fp.head := rfl
@[simp] theorem advanceHead_fp_tail : (advanceHead s).fp.tail = s.fp.tail := rfl
@[simp] theorem advanceHead_fp_freeCount : (advanceHead s).fp.freeCount = s.fp.freeCount - 1 := rfl
@[simp] theorem advanceHead_fp_usedCount : (advanceHead s).fp.usedCount = s.fp.usedCount + 1 := rfl
@[simp] theorem advanceHead_fp_overflow : (advanceHead s).fp.overflow = s.fp.overflow := rfl
@[simp] theorem advanceHead_fp_payload : (advanceHead s).fp.payload = s.fp.payload := rfl
@[simp] theorem advanceHead_fp_length : (advanceHead s).fp.length = s.fp.length := rfl
@[simp] theorem advanceHead_fp_crcOk : (advanceHead s).fp.crcOk = s.fp.crcOk := rfl
@[simp] theorem advanceHead_port : (advanceHead s).port = s.port := rfl
@[simp] theorem advanceHead_inbox : (advanceHead s).inbox = s.inbox := rfl
@[simp] theorem advanceHead_answers : (advanceHead s).answers = s.answers := rfl
@[simp] theorem advanceHead_events : (advanceHead s).events = s.events := rfl
@[simp] theorem advanceHead_radioOpen : (advanceHead s).radioOpen = s.radioOpen := rfl

/-! `advanceTail` -/

@[simp] theorem advanceTail_cfg : (advanceTail s).cfg = s.cfg := rfl
@[simp] theorem advanceTail_sli : (advanceTail s).sli = s.sli := rfl
@[simp] theorem advanceTail_fp_head : (advanceTail s).fp.head = s.fp.head := rfl
@[simp] theorem advanceTail_fp_tail : (advanceTail s).fp.tail = nextSlot s.cfg s.fp.tail := rfl
@[simp] theorem advanceTail_fp_freeCount : (advanceTail s).fp.freeCount = s.fp.freeCount + 1 := rfl
@[simp] theorem advanceTail_fp_usedCount : (advanceTail s).fp.usedCount = s.fp.usedCount - 1 := rfl
@[simp] theorem advanceTail_fp_overflow : (advanceTail s).fp.overflow = s.fp.overflow := rfl
@[simp] theorem advanceTail_fp_payload : (advanceTail s).fp.payload = s.fp.payload := rfl
@[simp] theorem advanceTail_fp_length : (advanceTail s).fp.length = s.fp.length := rfl
@[simp] theorem advanceTail_fp_crcOk : (advanceTail s).fp.crcOk = s.fp.crcOk := rfl
@[simp] theorem advanceTail_port : (advanceTail s).port = s.port := rfl
@[simp] theorem advanceTail_inbox : (advanceTail s).inbox = s.inbox := rfl
@[simp] theorem advanceTail_answers : (advanceTail s).answers = s.answers := rfl
@[simp] theorem advanceTail_events : (advanceTail s).events = s.events := rfl
@[simp] theorem advanceTail_radioOpen : (advanceTail s).radioOpen = s.radioOpen := rfl

/-! `answer` -/

@[simp] theorem answer_cfg (w : Word) : (s.answer w).cfg = s.cfg := rfl
@[simp] theorem answer_sli (w : Word) : (s.answer w).sli = s.sli := rfl
@[simp] theorem answer_fp (w : Word) : (s.answer w).fp = s.fp := rfl
@[simp] theorem answer_port (w : Word) : (s.answer w).port = s.port := rfl
@[simp] theorem answer_inbox (w : Word) : (s.answer w).inbox = s.inbox := rfl
@[simp] theorem answer_answers (w : Word) : (s.answer w).answers = s.answers ++ [(s.port, w)] := rfl
@[simp] theorem answer_events (w : Word) : (s.answer w).events = s.events := rfl
@[simp] theorem answer_radioOpen (w : Word) : (s.answer w).radioOpen = s.radioOpen := rfl

/-! `emit` -/

@[simp] theorem emit_cfg (e : Event) : (s.emit e).cfg = s.cfg := rfl
@[simp] theorem emit_sli (e : Event) : (s.emit e).sli = s.sli := rfl
@[simp] theorem emit_fp (e : Event) : (s.emit e).fp = s.fp := rfl
@[simp] theorem emit_port (e : Event) : (s.emit e).port = s.port := rfl
@[simp] theorem emit_inbox (e : Event) : (s.emit e).inbox = s.inbox := rfl
@[simp] theorem emit_answers (e : Event) : (s.emit e).answers = s.answers := rfl
@[simp] theorem emit_events (e : Event) : (s.emit e).events = s.events ++ [e] := rfl
@[simp] theorem emit_radioOpen (e : Event) : (s.emit e).radioOpen = s.radioOpen := rfl

/-! `setCompletedLength`: the two entries through `completedLength` -/

@[simp] theorem setCompletedLength_cfg (k : Buf) (n : Nat) :
    (s.setCompletedLength k n).cfg = s.cfg := by cases k <;> rfl
@[simp] theorem setCompletedLength_sli_activeIndex (k : Buf) (n : Nat) :
    (s.setCompletedLength k n).sli.activeIndex = s.sli.activeIndex := by cases k <;> rfl
@[simp] theorem setCompletedLength_sli_writeOffset (k : Buf) (n : Nat) :
    (s.setCompletedLength k n).sli.writeOffset = s.sli.writeOffset := by cases k <;> rfl
@[simp] theorem setCompletedLength_sli_messageReady (k : Buf) (n : Nat) :
    (s.setCompletedLength k n).sli.messageReady = s.sli.messageReady := by cases k <;> rfl
@[simp] theorem setCompletedLength_sli_lb (k : Buf) (n : Nat) :
    (s.setCompletedLength k n).sli.lb = s.sli.lb := by cases k <;> rfl
@[simp] theorem setCompletedLength_fp (k : Buf) (n : Nat) :
    (s.setCompletedLength k n).fp = s.fp := by cases k <;> rfl
@[simp] theorem setCompletedLength_port (k : Buf) (n : Nat) :
    (s.setCompletedLength k n).port = s.port := by cases k <;> rfl
@[simp] theorem setCompletedLength_inbox (k : Buf) (n : Nat) :
    (s.setCompletedLength k n).inbox = s.inbox := by cases k <;> rfl
@[simp] theorem setCompletedLength_answers (k : Buf) (n : Nat) :
    (s.setCompletedLength k n).answers = s.answers := by cases k <;> rfl
@[simp] theorem setCompletedLength_events (k : Buf) (n : Nat) :
    (s.setCompletedLength k n).events = s.events := by cases k <;> rfl
@[simp] theorem setCompletedLength_radioOpen (k : Buf) (n : Nat) :
    (s.setCompletedLength k n).radioOpen = s.radioOpen := by cases k <;> rfl

/-! `completedLength` after each update -/

@[simp] theorem setCompletedLength_same (k : Buf) (n : Nat) :
    (s.setCompletedLength k n).completedLength k = n := by cases k <;> rfl
@[simp] theorem setCompletedLength_other (k : Buf) (n : Nat) :
    (s.setCompletedLength k n).completedLength k.other = s.completedLength k.other := by cases k <;> rfl
@[simp] theorem setCompletedLength_of_other (k : Buf) (n : Nat) :
    (s.setCompletedLength k.other n).completedLength k = s.completedLength k := by cases k <;> rfl
@[simp] theorem Buf.other_other (k : Buf) : k.other.other = k := by cases k <;> rfl
theorem Buf.other_ne (k : Buf) : k.other ≠ k := by cases k <;> decide
@[simp] theorem setReady_completedLength (b : Bool) (j : Buf) :
    (s.setReady b).completedLength j = s.completedLength j := by cases j <;> rfl
@[simp] theorem setOverflow_completedLength (b : Bool) (j : Buf) :
    (s.setOverflow b).completedLength j = s.completedLength j := by cases j <;> rfl
@[simp] theorem setActive_completedLength (k : Buf) (j : Buf) :
    (s.setActive k).completedLength j = s.completedLength j := by cases j <;> rfl
@[simp] theorem setOffset_completedLength (w : Nat) (j : Buf) :
    (s.setOffset w).completedLength j = s.completedLength j := by cases j <;> rfl
@[simp] theorem lbWrite_completedLength (k : Buf) (off : Nat) (v : Byte) (j : Buf) :
    (s.lbWrite k off v).completedLength j = s.completedLength j := by cases j <;> rfl
@[simp] theorem answer_completedLength (w : Word) (j : Buf) :
    (s.answer w).completedLength j = s.completedLength j := by cases j <;> rfl
@[simp] theorem emit_completedLength (e : Event) (j : Buf) :
    (s.emit e).completedLength j = s.completedLength j := by cases j <;> rfl

/-! `trackRadio` changes only `radioOpen` -/

@[simp] theorem trackRadio_cfg (i : Instr) : (s.trackRadio i).cfg = s.cfg := by cases i <;> rfl
@[simp] theorem trackRadio_sli (i : Instr) : (s.trackRadio i).sli = s.sli := by cases i <;> rfl
@[simp] theorem trackRadio_fp (i : Instr) : (s.trackRadio i).fp = s.fp := by cases i <;> rfl
@[simp] theorem trackRadio_port (i : Instr) : (s.trackRadio i).port = s.port := by cases i <;> rfl
@[simp] theorem trackRadio_inbox (i : Instr) : (s.trackRadio i).inbox = s.inbox := by cases i <;> rfl
@[simp] theorem trackRadio_answers (i : Instr) : (s.trackRadio i).answers = s.answers := by cases i <;> rfl
@[simp] theorem trackRadio_events (i : Instr) : (s.trackRadio i).events = s.events := by cases i <;> rfl

/-- Two entries cover `completed_length`: an equality on both buffers is one on the two fields. -/
theorem completedLength_ext {s t : State} (h : ∀ k, t.completedLength k = s.completedLength k) :
    t.sli.completedLength0 = s.sli.completedLength0 ∧ t.sli.completedLength1 = s.sli.completedLength1 :=
  ⟨h .b0, h .b1⟩

end Sys2Proof.Machine
end

