-- ==== Sys2Proof/Laws/Memory.lean ====
section
/-! SUPPORT. The laws of memory: a read after a write, the canonical form, the locations of LB and FS. -/

namespace Sys2Proof.Machine

variable {α : Type}

@[simp] theorem Memory.read_write_same (m : List (Nat × α)) (a : Nat) (v : α) :
    Memory.read (Memory.write m a v) a = some v := by
  induction m with
  | nil => simp [Memory.write, Memory.read]
  | cons c rest ih =>
    obtain ⟨b, u⟩ := c
    simp only [Memory.write]
    split_ifs with h1 h2
    · simp [Memory.read]
    · simp [Memory.read]
    · simp [Memory.read, h2, ih]

theorem Memory.read_write_other (m : List (Nat × α)) {a b : Nat} (v : α) (h : b ≠ a) :
    Memory.read (Memory.write m a v) b = Memory.read m b := by
  induction m with
  | nil => simp [Memory.write, Memory.read, h]
  | cons c rest ih =>
    obtain ⟨k, u⟩ := c
    simp only [Memory.write]
    split_ifs with h1 h2
    · simp [Memory.read, h]
    · subst h2; simp [Memory.read, h]
    · simp [Memory.read, ih]

/-- What every location holds after a write. -/
theorem Memory.read_write (m : List (Nat × α)) (a b : Nat) (v : α) :
    Memory.read (Memory.write m a v) b = if b = a then some v else Memory.read m b := by
  split_ifs with h
  · subst h; exact Memory.read_write_same m b v
  · exact Memory.read_write_other m v h

/-- A cell of a written memory is the written one or an old one. -/
theorem Memory.mem_write {m : List (Nat × α)} {a : Nat} {v : α} {c : Nat × α}
    (h : c ∈ Memory.write m a v) : c = (a, v) ∨ c ∈ m := by
  induction m with
  | nil => simpa [Memory.write] using h
  | cons d rest ih =>
    obtain ⟨b, u⟩ := d
    simp only [Memory.write] at h
    split_ifs at h with h1 h2
    · simpa using h
    · simp only [List.mem_cons] at h ⊢; tauto
    · simp only [List.mem_cons] at h ⊢
      rcases h with h | h
      · exact Or.inr (Or.inl h)
      · exact (ih h).imp id Or.inr

/-- The canonical form of a list with a head: every later key is larger than the first, and the rest is in form. -/
theorem Memory.wf_cons {b : Nat} {u : α} {rest : List (Nat × α)} :
    Memory.wf ((b, u) :: rest) = true ↔ (∀ c ∈ rest, b < c.1) ∧ Memory.wf rest = true := by
  induction rest generalizing b u with
  | nil => simp [Memory.wf]
  | cons d rest ih =>
    obtain ⟨k, w⟩ := d
    simp only [Memory.wf, Bool.and_eq_true, decide_eq_true_eq, List.mem_cons, forall_eq_or_imp]
    constructor
    · rintro ⟨h1, h2⟩
      exact ⟨⟨h1, fun c hc => lt_trans h1 ((ih.mp h2).1 c hc)⟩, h2⟩
    · rintro ⟨⟨h1, _⟩, h2⟩
      exact ⟨h1, h2⟩

/-- A write keeps the canonical form. -/
theorem Memory.wf_write {m : List (Nat × α)} (a : Nat) (v : α) (h : Memory.wf m = true) :
    Memory.wf (Memory.write m a v) = true := by
  induction m with
  | nil => rfl
  | cons d rest ih =>
    obtain ⟨b, u⟩ := d
    have hr := Memory.wf_cons.mp h
    simp only [Memory.write]
    split_ifs with h1 h2
    · refine Memory.wf_cons.mpr ⟨fun c hc => ?_, h⟩
      rcases List.mem_cons.mp hc with rfl | hc
      · exact h1
      · exact lt_trans h1 (hr.1 c hc)
    · subst h2; exact Memory.wf_cons.mpr hr
    · refine Memory.wf_cons.mpr ⟨fun c hc => ?_, ih hr.2⟩
      rcases Memory.mem_write hc with rfl | hc
      · simp only; omega
      · exact hr.1 c hc

/-! ### Locations of LB -/

theorem lbAddr_same (cfg : Config) (k : Buf) (i j : Nat) : lbAddr cfg k i = lbAddr cfg k j ↔ i = j := by
  simp [lbAddr]

/-- A location of LB has one address and an address one location. -/
theorem lbAddr_inj (cfg : Config) {k k' : Buf} {i j : Nat} (hi : i < cfg.capacity) (hj : j < cfg.capacity) :
    lbAddr cfg k i = lbAddr cfg k' j ↔ k = k' ∧ i = j := by
  cases k <;> cases k' <;> simp [lbAddr, Buf.index] <;> omega

/-- Every location of LB lies in the space. -/
theorem lbAddr_lt (cfg : Config) (k : Buf) {i : Nat} (hi : i < cfg.capacity) : lbAddr cfg k i < 2 * cfg.capacity := by
  cases k <;> simp [lbAddr, Buf.index] <;> omega

theorem lbWritten_lbWrite (s : State) (k j : Buf) (off i : Nat) (v : Byte) :
    (s.lbWrite k off v).lbWritten j i =
      if lbAddr s.cfg j i = lbAddr s.cfg k off then some v else s.lbWritten j i := by
  simp [State.lbWritten, Memory.read_write]

/-- A write to a location of LB, read back at a location of LB. -/
theorem lbWritten_lbWrite_inside (s : State) (k j : Buf) {off i : Nat} (v : Byte)
    (ho : off < s.cfg.capacity) (hi : i < s.cfg.capacity) :
    (s.lbWrite k off v).lbWritten j i = if j = k ∧ i = off then some v else s.lbWritten j i := by
  rw [lbWritten_lbWrite]; simp only [lbAddr_inj s.cfg hi ho]

/-! ### Locations of FS -/

/-- A payload location has one address and an address one location. -/
theorem payloadAddr_inj (cfg : Config) {s s' i j : Nat} (hi : i < cfg.payloadBytes) (hj : j < cfg.payloadBytes) :
    payloadAddr cfg s i = payloadAddr cfg s' j ↔ s = s' ∧ i = j := by
  unfold payloadAddr
  constructor
  · intro h
    have h1 := congrArg (· / cfg.payloadBytes) h
    have h2 := congrArg (· % cfg.payloadBytes) h
    have hp : 0 < cfg.payloadBytes := by omega
    simp only [Nat.mul_comm _ cfg.payloadBytes, Nat.mul_add_mod, Nat.mul_add_div hp, Nat.mod_eq_of_lt hi, Nat.mod_eq_of_lt hj,
      Nat.div_eq_of_lt hi, Nat.div_eq_of_lt hj] at h1 h2
    exact ⟨by omega, h2⟩
  · rintro ⟨rfl, rfl⟩; rfl

/-- Every payload location lies in the space. -/
theorem payloadAddr_lt (cfg : Config) {s i : Nat} (hs : s < cfg.slots) (hi : i < cfg.payloadBytes) :
    payloadAddr cfg s i < cfg.slots * cfg.payloadBytes := by
  unfold payloadAddr
  calc s * cfg.payloadBytes + i < s * cfg.payloadBytes + cfg.payloadBytes := by omega
    _ = (s + 1) * cfg.payloadBytes := by ring
    _ ≤ cfg.slots * cfg.payloadBytes := Nat.mul_le_mul_right _ hs

/-- A write to a payload location, read back at a payload location. -/
theorem payloadWritten_payloadWrite (s : State) (slot slot' : Nat) {off i : Nat} (v : Byte)
    (ho : off < s.cfg.payloadBytes) (hi : i < s.cfg.payloadBytes) :
    (s.payloadWrite slot off v).payloadWritten slot' i =
      if slot' = slot ∧ i = off then some v else s.payloadWritten slot' i := by
  simp only [State.payloadWritten, payloadWrite_fp_payload, payloadWrite_cfg, Memory.read_write,
    payloadAddr_inj s.cfg hi ho]

end Sys2Proof.Machine
end

