-- ==== Sys2Proof/Laws/Ops.lean ====
section
/-! SUPPORT. One lemma for each shared operation that says all it can do, and one for each meaning that says what a next state of
it is. -/

namespace Sys2Proof.Machine

/-- The permission check lets the command's rule run on its own port and on no other. -/
theorem onPort_eq_next {p : Port} {s t : State} {k : Host.Outcome State Fault Refusal} :
    onPort p s k = .next t ↔ s.port = p ∧ k = .next t := by
  unfold onPort respondFault; split_ifs with h <;> simp [h]

@[simp] theorem onPort_own {p : Port} {s : State} (k : Host.Outcome State Fault Refusal) (h : s.port = p) :
    onPort p s k = k := by simp [onPort, h]

theorem onPort_other {p : Port} {s : State} (k : Host.Outcome State Fault Refusal) (h : s.port ≠ p) :
    onPort p s k = .fault .wrongPort := by simp [onPort, h, respondFault]

theorem respondOk_eq_next {ra : Byte} {rx : Half} {s t : State} :
    respondOk ra rx s = .next t ↔ t = s.answer (okWord ra rx) := by
  simp [respondOk, eq_comm]

/-- The guard of the commands that write the slot at `head`. -/
theorem onHeadSlot_eq_next {ok : Bool} {s t : State} {k : Host.Outcome State Fault Refusal} :
    onHeadSlot ok s k = .next t ↔ (ok = true ∧ s.fp.head < s.cfg.slots) ∧ s.fp.freeCount ≠ 0 ∧ k = .next t := by
  unfold onHeadSlot respondFault inPool; split_ifs with h1 h2 <;> simp_all

theorem onHeadSlot_free {ok : Bool} {s : State} (k : Host.Outcome State Fault Refusal) (h1 : ok = true)
    (h2 : s.fp.head < s.cfg.slots) (h3 : s.fp.freeCount ≠ 0) : onHeadSlot ok s k = k := by
  simp [onHeadSlot, inPool, h1, h2, h3]

/-- The buffer an operand names is the one with its index. -/
theorem bufferOf_eq_some {k : Byte} {b : Buf} : bufferOf k = some b ↔ k.toNat = b.index := by
  unfold bufferOf
  cases b <;> split_ifs with h1 h2 <;> simp_all [Buf.index, BitVec.toNat_eq]

theorem bufferOf_eq_none {k : Byte} : bufferOf k = none ↔ 1 < k.toNat := by
  unfold bufferOf
  split_ifs with h1 h2 <;> simp_all [BitVec.toNat_eq]; omega

/-! ### What a next state of each meaning is -/

theorem execSliInit_next {s t : State} : execSliInit s = .next t ↔ s.port = .pf ∧
    t = (((((s.setActive .b0).setOffset 0).setReady false).setCompletedLength .b0 0).setCompletedLength .b1 0).answer
      (okWord 0#8 0#16) := by
  simp only [execSliInit, onPort_eq_next, respondOk_eq_next]

theorem execSliByte_next {b : Byte} {s t : State} : execSliByte b s = .next t ↔ s.port = .pu ∧
    t = (onByte b s).answer (okWord 0#8 0#16) := by
  simp only [execSliByte, onPort_eq_next, respondOk_eq_next]

theorem execSliHas_next {s t : State} : execSliHas s = .next t ↔ s.port = .pf ∧
    t = s.answer (okWord (flag8 s.sli.messageReady) 0#16) := by
  simp only [execSliHas, onPort_eq_next, respondOk_eq_next]

theorem execSliTake_next {s t : State} : execSliTake s = .next t ↔ s.port = .pf ∧
    t = (s.setReady false).answer
      (okWord (zext8 s.sli.activeIndex.other.index) (zext16 (s.completedLength s.sli.activeIndex.other))) := by
  simp only [execSliTake, onPort_eq_next, respondOk_eq_next]

theorem execSliRead_next {k : Byte} {off : Half} {s t : State} : execSliRead k off s = .next t ↔ s.port = .pf ∧
    ∃ buf, k.toNat = Buf.index buf ∧ off.toNat < s.cfg.capacity ∧
      t = s.answer (okWord (s.lbRead buf off.toNat) 0#16) := by
  simp only [execSliRead, onPort_eq_next, inBuffer, decide_eq_true_eq]
  refine and_congr_right fun _ => ?_
  cases hb : bufferOf k with
  | none =>
    have := bufferOf_eq_none.mp hb
    simp only [respondFault, reduceCtorEq, false_iff, not_exists]
    rintro buf ⟨h, -⟩; cases buf <;> simp [Buf.index] at h <;> omega
  | some buf =>
    have hk := bufferOf_eq_some.mp hb
    simp only [respondFault]
    constructor
    · intro h; split_ifs at h with h1
      exact ⟨buf, hk, h1, respondOk_eq_next.mp h⟩
    · rintro ⟨buf', h1, h2, rfl⟩
      obtain rfl : buf = buf' := by cases buf <;> cases buf' <;> simp_all [Buf.index]
      simp [h2, respondOk]

theorem execSliReset_next {s t : State} : execSliReset s = .next t ↔ s.port = .pf ∧
    t = (((s.setReady false).emit .flushRx).emit .enableRxIrq).answer (okWord 0#8 0#16) := by
  simp only [execSliReset, onPort_eq_next, respondOk_eq_next]

theorem execFpInit_next {s t : State} : execFpInit s = .next t ↔ s.port = .pf ∧
    t = s.emptyPool.answer (okWord 0#8 0#16) := by
  simp only [execFpInit, onPort_eq_next, respondOk_eq_next]

theorem execFpReserve_next {s t : State} : execFpReserve s = .next t ↔ s.port = .pr ∧
    t = if s.fp.freeCount = 0 then (s.setOverflow true).answer noneWord
      else s.answer (okWord (zext8 s.fp.head) 0#16) := by
  simp only [execFpReserve, onPort_eq_next, Host.Outcome.next.injEq]
  exact and_congr_right fun _ => eq_comm

theorem execFpFillb_next {v : Byte} {off : Half} {s t : State} : execFpFillb v off s = .next t ↔ s.port = .pr ∧
    (off.toNat < s.cfg.payloadBytes ∧ s.fp.head < s.cfg.slots) ∧ s.fp.freeCount ≠ 0 ∧
    t = (s.payloadWrite s.fp.head off.toNat v).answer (okWord 0#8 0#16) := by
  simp only [execFpFillb, onPort_eq_next, onHeadSlot_eq_next, respondOk_eq_next, inPayload, decide_eq_true_eq]

theorem execFpSetlen_next {len : Half} {s t : State} : execFpSetlen len s = .next t ↔ s.port = .pr ∧
    (len.toNat < 2 ^ s.cfg.lenBits ∧ s.fp.head < s.cfg.slots) ∧ s.fp.freeCount ≠ 0 ∧
    t = (s.lengthWrite s.fp.head len).answer (okWord 0#8 0#16) := by
  simp only [execFpSetlen, onPort_eq_next, onHeadSlot_eq_next, respondOk_eq_next, fitsLength, decide_eq_true_eq]

theorem execFpCommit_next {f : Bool} {s t : State} : execFpCommit f s = .next t ↔ s.port = .pr ∧
    s.fp.head < s.cfg.slots ∧ s.fp.freeCount ≠ 0 ∧
    t = (if f then advanceHead (s.crcWrite s.fp.head f) else s.crcWrite s.fp.head f).answer (okWord 0#8 0#16) := by
  simp only [execFpCommit, onPort_eq_next, onHeadSlot_eq_next, respondOk_eq_next, true_and]

theorem execFpHasdata_next {s t : State} : execFpHasdata s = .next t ↔ s.port = .pf ∧
    t = s.answer (okWord (flag8 (decide (s.fp.usedCount ≠ 0))) 0#16) := by
  simp only [execFpHasdata, onPort_eq_next, respondOk_eq_next]

theorem execFpPeek_next {s t : State} : execFpPeek s = .next t ↔ s.port = .pf ∧ s.fp.usedCount ≠ 0 ∧
    t = s.answer (okWord (zext8 s.fp.tail) 0#16) := by
  simp only [execFpPeek, onPort_eq_next, respondFault]
  split_ifs with h <;> simp [h, respondOk_eq_next]

theorem execFpRdlen_next {slot : Byte} {s t : State} : execFpRdlen slot s = .next t ↔ s.port = .pf ∧
    slot.toNat < s.cfg.slots ∧
    t = s.answer (okWord (flag8 (s.crcRead slot.toNat)) (s.lengthRead slot.toNat)) := by
  simp only [execFpRdlen, onPort_eq_next, respondFault, inPool, decide_eq_true_eq]
  split_ifs with h <;> simp [h, respondOk_eq_next]

theorem execFpReadb_next {slot : Byte} {off : Half} {s t : State} : execFpReadb slot off s = .next t ↔ s.port = .pf ∧
    (slot.toNat < s.cfg.slots ∧ off.toNat < s.cfg.payloadBytes) ∧
    t = s.answer (okWord (s.payloadRead slot.toNat off.toNat) 0#16) := by
  simp only [execFpReadb, onPort_eq_next, respondFault, inPool, inPayload, Bool.and_eq_true, decide_eq_true_eq]
  split_ifs with h <;> simp [h, respondOk_eq_next]

theorem execFpRelease_next {s t : State} : execFpRelease s = .next t ↔ s.port = .pf ∧ s.fp.usedCount ≠ 0 ∧
    t = (advanceTail s).answer (okWord 0#8 0#16) := by
  simp only [execFpRelease, onPort_eq_next, respondFault]
  split_ifs with h <;> simp [h, respondOk_eq_next]

theorem execFpOvf_next {s t : State} : execFpOvf s = .next t ↔ s.port = .pf ∧
    t = s.answer (okWord (flag8 s.fp.overflow) 0#16) := by
  simp only [execFpOvf, onPort_eq_next, respondOk_eq_next]

theorem execFpReset_next {s t : State} : execFpReset s = .next t ↔ s.port = .pf ∧
    t = s.emptyPool.answer (okWord 0#8 0#16) := by
  simp only [execFpReset, onPort_eq_next, respondOk_eq_next]

/-! ### The step -/

/-- What a step that goes on can be: nothing left to do, a handler return, or a command executed on its arrival. -/
theorem step_next_cases {s t : State} (h : step s = .next t) :
    s.cfg.WellFormed ∧
    ((s.inbox = [] ∧ t = s) ∨
     (∃ rest, s.inbox = .radioReturn :: rest ∧ t = { s with inbox := rest, radioOpen := false }) ∨
     (∃ p w rest i u, s.inbox = .command p w :: rest ∧ ¬(p = .pf ∧ s.radioOpen = true) ∧ decode w = .command i ∧
       exec i { s with port := p, inbox := rest } = .next u ∧ t = u.trackRadio i)) := by
  unfold step fetch at h
  by_cases hc : s.cfg.WellFormed
  swap
  · rw [if_neg hc] at h; simp at h
  rw [if_pos hc] at h
  refine ⟨hc, ?_⟩
  match hi : s.inbox with
  | [] =>
    rw [hi] at h
    simp only [Host.Outcome.next.injEq] at h
    exact Or.inl ⟨rfl, h.symm⟩
  | .radioReturn :: rest =>
    rw [hi] at h
    simp only [Host.Outcome.next.injEq] at h
    exact Or.inr (Or.inl ⟨rest, rfl, h.symm⟩)
  | .command p w :: rest =>
    rw [hi] at h
    by_cases hp : p = .pf ∧ s.radioOpen = true
    · simp [hp] at h
    simp only [hp, if_false] at h
    match hd : decode w with
    | .illegal why => rw [hd] at h; simp [respondFault] at h
    | .command i =>
      rw [hd] at h
      match he : exec i { s with port := p, inbox := rest } with
      | .next u =>
        simp only [he, settle, Host.Outcome.next.injEq] at h
        exact Or.inr (Or.inr ⟨p, w, rest, i, u, rfl, hp, hd, he, h.symm⟩)
      | .fault f => simp [he, settle] at h
      | .refused r => simp [he, settle] at h

end Sys2Proof.Machine
end

