-- ==== Sys2Proof/Laws/PerInstr.lean ====
section
/-! SUPPORT. Per-instruction statements about the syntax: every command's word is its row's of the opcode table of
30_encoding.md R74, under the row's mask (R71), and the row names the command and its port. -/

namespace Sys2Proof.Laws.TableRow

/-- The opcode table has a row of the command's mnemonic and port whose pattern the command's word has under the row's mask. -/
def Statement (i : Instr) : Prop :=
  ∃ r ∈ opcodeTable, r.mnemonic = i.mnemonic ∧ r.port = i.port ∧ encode i &&& r.mask = r.pattern

/-- A row given by its fields: the word's fields meet the mask's. -/
theorem of_fields {i : Instr} {op a : Byte} {x : Half} {ma : Byte} {mx : Half} (r : Row) (hr : r ∈ opcodeTable)
    (hm : r.mnemonic = i.mnemonic) (hp : r.port = i.port) (he : encode i = packFields op a x)
    (hk : r.mask = packFields 0xFF#8 ma mx) (hw : r.pattern = packFields op 0#8 0#16)
    (ha : a &&& ma = 0#8) (hx : x &&& mx = 0#16) : Statement i := by
  refine ⟨r, hr, hm, hp, ?_⟩
  rw [he, hk, hw, packFields_and, ha, hx]
  congr 1
  exact BitVec.and_allOnes

theorem sliInit : Statement .sliInit :=
  of_fields (ma := 0xFF#8) (mx := 0xFFFF#16) ⟨"SLI.INIT", 0x10000000#32, 0xFFFFFFFF#32, .pf⟩ (by decide) rfl rfl rfl (by decide) (by decide)
    (by decide) (by decide)

theorem sliByte (b : Byte) : Statement (.sliByte b) :=
  of_fields (ma := 0x00#8) (mx := 0xFFFF#16) ⟨"SLI.BYTE", 0x11000000#32, 0xFF00FFFF#32, .pu⟩ (by decide) rfl rfl rfl (by decide) (by decide)
    (by simp) (by decide)

theorem sliHas : Statement .sliHas :=
  of_fields (ma := 0xFF#8) (mx := 0xFFFF#16) ⟨"SLI.HAS", 0x12000000#32, 0xFFFFFFFF#32, .pf⟩ (by decide) rfl rfl rfl (by decide) (by decide)
    (by decide) (by decide)

theorem sliTake : Statement .sliTake :=
  of_fields (ma := 0xFF#8) (mx := 0xFFFF#16) ⟨"SLI.TAKE", 0x13000000#32, 0xFFFFFFFF#32, .pf⟩ (by decide) rfl rfl rfl (by decide) (by decide)
    (by decide) (by decide)

theorem sliRead (k : Byte) (off : Half) : Statement (.sliRead k off) :=
  of_fields (ma := 0x00#8) (mx := 0x0000#16) ⟨"SLI.READ", 0x14000000#32, 0xFF000000#32, .pf⟩ (by decide) rfl rfl rfl (by decide) (by decide)
    (by simp) (by simp)

theorem sliReset : Statement .sliReset :=
  of_fields (ma := 0xFF#8) (mx := 0xFFFF#16) ⟨"SLI.RESET", 0x15000000#32, 0xFFFFFFFF#32, .pf⟩ (by decide) rfl rfl rfl (by decide) (by decide)
    (by decide) (by decide)

theorem fpInit : Statement .fpInit :=
  of_fields (ma := 0xFF#8) (mx := 0xFFFF#16) ⟨"FP.INIT", 0x20000000#32, 0xFFFFFFFF#32, .pf⟩ (by decide) rfl rfl rfl (by decide) (by decide)
    (by decide) (by decide)

theorem fpReserve : Statement .fpReserve :=
  of_fields (ma := 0xFF#8) (mx := 0xFFFF#16) ⟨"FP.RESERVE", 0x21000000#32, 0xFFFFFFFF#32, .pr⟩ (by decide) rfl rfl rfl (by decide) (by decide)
    (by decide) (by decide)

theorem fpFillb (v : Byte) (off : Half) : Statement (.fpFillb v off) :=
  of_fields (ma := 0x00#8) (mx := 0x0000#16) ⟨"FP.FILLB", 0x22000000#32, 0xFF000000#32, .pr⟩ (by decide) rfl rfl rfl (by decide) (by decide)
    (by simp) (by simp)

theorem fpSetlen (len : Half) : Statement (.fpSetlen len) :=
  of_fields (ma := 0xFF#8) (mx := 0x0000#16) ⟨"FP.SETLEN", 0x23000000#32, 0xFFFF0000#32, .pr⟩ (by decide) rfl rfl rfl (by decide) (by decide)
    (by decide) (by simp)

theorem fpCommit (f : Bool) : Statement (.fpCommit f) :=
  of_fields (ma := 0xFE#8) (mx := 0xFFFF#16) ⟨"FP.COMMIT", 0x24000000#32, 0xFFFEFFFF#32, .pr⟩ (by decide) rfl rfl rfl (by decide) (by decide)
    (by cases f <;> decide) (by decide)

theorem fpHasdata : Statement .fpHasdata :=
  of_fields (ma := 0xFF#8) (mx := 0xFFFF#16) ⟨"FP.HASDATA", 0x25000000#32, 0xFFFFFFFF#32, .pf⟩ (by decide) rfl rfl rfl (by decide) (by decide)
    (by decide) (by decide)

theorem fpPeek : Statement .fpPeek :=
  of_fields (ma := 0xFF#8) (mx := 0xFFFF#16) ⟨"FP.PEEK", 0x26000000#32, 0xFFFFFFFF#32, .pf⟩ (by decide) rfl rfl rfl (by decide) (by decide)
    (by decide) (by decide)

theorem fpRdlen (s : Byte) : Statement (.fpRdlen s) :=
  of_fields (ma := 0x00#8) (mx := 0xFFFF#16) ⟨"FP.RDLEN", 0x27000000#32, 0xFF00FFFF#32, .pf⟩ (by decide) rfl rfl rfl (by decide) (by decide)
    (by simp) (by decide)

theorem fpReadb (s : Byte) (off : Half) : Statement (.fpReadb s off) :=
  of_fields (ma := 0x00#8) (mx := 0x0000#16) ⟨"FP.READB", 0x28000000#32, 0xFF000000#32, .pf⟩ (by decide) rfl rfl rfl (by decide) (by decide)
    (by simp) (by simp)

theorem fpRelease : Statement .fpRelease :=
  of_fields (ma := 0xFF#8) (mx := 0xFFFF#16) ⟨"FP.RELEASE", 0x29000000#32, 0xFFFFFFFF#32, .pf⟩ (by decide) rfl rfl rfl (by decide) (by decide)
    (by decide) (by decide)

theorem fpOvf : Statement .fpOvf :=
  of_fields (ma := 0xFF#8) (mx := 0xFFFF#16) ⟨"FP.OVF", 0x2A000000#32, 0xFFFFFFFF#32, .pf⟩ (by decide) rfl rfl rfl (by decide) (by decide)
    (by decide) (by decide)

theorem fpReset : Statement .fpReset :=
  of_fields (ma := 0xFF#8) (mx := 0xFFFF#16) ⟨"FP.RESET", 0x2B000000#32, 0xFFFFFFFF#32, .pf⟩ (by decide) rfl rfl rfl (by decide) (by decide)
    (by decide) (by decide)

end Sys2Proof.Laws.TableRow
end

