-- ==== Sys2Proof/Laws/Run.lean ====
section
/-! SUPPORT. The laws of a run: `run` is the host's run of the machine, runs compose, and what one command of the inbox does. -/

namespace Sys2Proof.Machine

theorem run_succ (n : Nat) (s : State) :
    run (n + 1) s = match step s with
      | .next t => run n t
      | .fault f => .fault f
      | .refused r => .refused r := rfl

/-- The host's run of any machine, by the outcome of its first step. -/
theorem core_run_next (M : Host.Core) {n : Nat} {s t : M.State} (h : M.step s = .next t) :
    M.run (n + 1) s = M.run n t := by rw [Host.Core.run, h]
theorem core_run_fault (M : Host.Core) {n : Nat} {s : M.State} {f : M.Fault} (h : M.step s = .fault f) :
    M.run (n + 1) s = .fault f := by rw [Host.Core.run, h]
theorem core_run_refused (M : Host.Core) {n : Nat} {s : M.State} {r : M.Refusal} (h : M.step s = .refused r) :
    M.run (n + 1) s = .refused r := by rw [Host.Core.run, h]

/-- `run` is the host's run. -/
theorem run_eq_core (n : Nat) (s : State) : Host.Core.run Sys2Proof.core n s = run n s := by
  induction n generalizing s with
  | zero => rfl
  | succ n ih =>
    rw [run_succ]
    cases h : step s with
    | next t => exact (core_run_next Sys2Proof.core h).trans (ih t)
    | fault f => exact core_run_fault Sys2Proof.core h
    | refused r => exact core_run_refused Sys2Proof.core h

theorem run_step {s t : State} {n : Nat} (h : step s = .next t) : run (n + 1) s = run n t := by rw [run_succ, h]

theorem run_one {s t : State} (h : step s = .next t) : run 1 s = .next t := by rw [run_step h]; rfl

/-- A run goes on from where its first part ended. -/
theorem run_add {m n : Nat} {s u : State} (h : run m s = .next u) : run (m + n) s = run n u := by
  induction m generalizing s with
  | zero => cases h; simp
  | succ m ih =>
    rw [run_succ] at h
    rw [show m + 1 + n = (m + n) + 1 by omega, run_succ]
    cases hs : step s with
    | next t => rw [hs] at h; exact ih h
    | fault f => rw [hs] at h; cases h
    | refused r => rw [hs] at h; cases h

/-! ### LB through the updates -/

@[simp] theorem setOffset_lbWritten (s : State) (w : Nat) (k : Buf) (off : Nat) :
    (s.setOffset w).lbWritten k off = s.lbWritten k off := rfl
@[simp] theorem setActive_lbWritten (s : State) (a k : Buf) (off : Nat) :
    (s.setActive a).lbWritten k off = s.lbWritten k off := rfl
@[simp] theorem setReady_lbWritten (s : State) (b : Bool) (k : Buf) (off : Nat) :
    (s.setReady b).lbWritten k off = s.lbWritten k off := rfl
@[simp] theorem answer_lbWritten (s : State) (w : Word) (k : Buf) (off : Nat) :
    (s.answer w).lbWritten k off = s.lbWritten k off := rfl
@[simp] theorem emit_lbWritten (s : State) (e : Event) (k : Buf) (off : Nat) :
    (s.emit e).lbWritten k off = s.lbWritten k off := rfl
@[simp] theorem setCompletedLength_lbWritten (s : State) (j : Buf) (n : Nat) (k : Buf) (off : Nat) :
    (s.setCompletedLength j n).lbWritten k off = s.lbWritten k off := by cases j <;> rfl

/-- What the ordinary path of SLI.BYTE leaves in LB. -/
theorem ordinaryPath_lbWritten (b : Byte) (s : State) (h : s.sli.writeOffset + 2 < s.cfg.capacity) (k : Buf) {off : Nat}
    (ho : off < s.cfg.capacity) :
    (ordinaryPath b s).lbWritten k off =
      if k = s.sli.activeIndex ∧ off = s.sli.writeOffset then some b else s.lbWritten k off := by
  simp only [ordinaryPath, setOffset_lbWritten]
  exact lbWritten_lbWrite_inside s _ _ b (by omega) ho

/-- What the terminator path of SLI.BYTE leaves in LB. -/
theorem terminatorPath_lbWritten (b : Byte) (s : State) (h : s.sli.writeOffset + 2 < s.cfg.capacity) (k : Buf) {off : Nat}
    (ho : off < s.cfg.capacity) :
    (terminatorPath b s).lbWritten k off =
      if k = s.sli.activeIndex ∧ off = s.sli.writeOffset then some b
      else if k = s.sli.activeIndex ∧ (off = s.sli.writeOffset + 1 ∨ off = s.sli.writeOffset + 2) then some 0x00#8
      else s.lbWritten k off := by
  simp only [terminatorPath, setOffset_lbWritten, setActive_lbWritten, setReady_lbWritten, setCompletedLength_lbWritten]
  rw [lbWritten_lbWrite_inside _ _ _ _ (by simp; omega) (by simpa),
    lbWritten_lbWrite_inside _ _ _ _ (by simp; omega) (by simpa),
    lbWritten_lbWrite_inside _ _ _ _ (by omega) (by simpa)]
  simp only [Config.zero]
  grind

/-! ### The three paths of SLI.BYTE -/

theorem onByte_ordinary {b : Byte} {s : State} (h : s.sli.writeOffset + 2 < s.cfg.capacity)
    (hb : b ∉ s.cfg.terminators) : onByte b s = ordinaryPath b s := by
  simp [onByte, Config.trailer, h, hb]

theorem onByte_terminator {b : Byte} {s : State} (h : s.sli.writeOffset + 2 < s.cfg.capacity)
    (hb : b ∈ s.cfg.terminators) : onByte b s = terminatorPath b s := by
  simp [onByte, Config.trailer, h, hb]

theorem onByte_overlong {b : Byte} {s : State} (h : s.cfg.capacity ≤ s.sli.writeOffset + 2) :
    onByte b s = overlongPath s := by
  unfold onByte Config.trailer; rw [if_neg (by omega)]

end Sys2Proof.Machine
end

