-- ==== Sys2Proof/Machine/Assembler.lean ====
section
/-! DEFINITION. The textual form of a command (30_encoding.md R78) and the two pseudo-operations (R79): what one line of text stands
for. It is a way to write inputs; no step of the machine uses it. -/

namespace Sys2Proof.Machine

/-- What one line of text stands for. -/
inductive Source where
  /-- One command on a port, permitted there or not (R78). -/
  | command (p : Port) (i : Instr)
  /-- `PU: SLI.LINE b0, ..., bn` (R79). -/
  | line (bytes : List Byte)
  /-- `PR: FP.FRAME len, f, v0, ..., vm` (R79). -/
  | frame (len : Half) (f : Bool) (bytes : List Byte)
  deriving DecidableEq, Repr

/-- An expected response (R78). -/
inductive Expected where
  /-- `-> OK`: the status alone (log entry 9). -/
  | ok
  /-- `-> OK(ra, rx)`. -/
  | okFields (ra : Byte) (rx : Half)
  /-- `-> NONE`. -/
  | none
  /-- `-> FAULT(cause)`. -/
  | fault (cause : Byte)
  deriving DecidableEq, Repr

/-! ### Pseudo-operations (R79) -/

/-- `FP.FILLB v0, off`, `FP.FILLB v1, off + 1`, and so on. DESIGN CHOICE (log entry 9): R79 does not say what byte operands
beyond the 65536 offsets of the x field stand for; `readSource` reads no such line, and here, on a list longer than any line
read, the offset wraps modulo 2^16. -/
def fillBytes : Nat → List Byte → List Instr
  | _, [] => []
  | off, v :: rest => .fpFillb v (zext16 off) :: fillBytes (off + 1) rest

/-- The commands a line of text issues first. -/
def Source.opening : Source → List (Port × Instr)
  | .command p i => [(p, i)]
  | .line bytes => bytes.map fun b => (.pu, .sliByte b)
  | .frame _ _ _ => [(.pr, .fpReserve)]

/-- `status = 0x0` (30_encoding.md R73). -/
def answeredOk (w : Word) : Bool := w.extractLsb' 28 4 == 0#4

/-- The commands it goes on with when the last of the first ones was answered with `w`: FP.FRAME ends where its FP.RESERVE
answers NONE. -/
def Source.continuation (w : Word) : Source → List (Port × Instr)
  | .command _ _ => []
  | .line _ => []
  | .frame len f bytes =>
    if answeredOk w then (fillBytes 0 bytes ++ [Instr.fpSetlen len, Instr.fpCommit f]).map (Prod.mk .pr) else []

/-- The input a command is. -/
def inputAt (c : Port × Instr) : Input := .command c.1 (encode c.2)

/-- Whether a response is the expected one. -/
def Expected.admits (w : Word) : Expected → Bool
  | .ok => answeredOk w
  | .okFields ra rx => w == okWord ra rx
  | .none => w == noneWord
  | .fault cause => w == 0xF00000#24 ++ cause

/-! ### Reading a line of text (R78) -/

/-- The pieces of a line. -/
inductive Token where
  | word (cs : List Char)
  | char (c : Char)
  | comma
  | colon
  | arrow
  | leftParen
  | rightParen
  deriving DecidableEq, Repr

/-- The word read so far, last character first, goes before the pieces that follow it. -/
def flush (w : List Char) (ts : List Token) : List Token := if w = [] then ts else .word w.reverse :: ts

/-- The pieces of a line up to its comment; none if a character stands where it cannot. -/
def tokens : List Char → List Char → Option (List Token)
  | [], w => some (flush w [])
  | '\'' :: c :: '\'' :: rest, w => (tokens rest []).map fun ts => flush w (.char c :: ts)
  | '-' :: '>' :: rest, w => (tokens rest []).map fun ts => flush w (.arrow :: ts)
  | c :: rest, w =>
    if c = ';' then some (flush w [])
    else if c = ' ' ∨ c = '\t' then (tokens rest []).map (flush w)
    else if c = ',' then (tokens rest []).map fun ts => flush w (.comma :: ts)
    else if c = ':' then (tokens rest []).map fun ts => flush w (.colon :: ts)
    else if c = '(' then (tokens rest []).map fun ts => flush w (.leftParen :: ts)
    else if c = ')' then (tokens rest []).map fun ts => flush w (.rightParen :: ts)
    else if c = '\'' ∨ c = '-' then none
    else tokens rest (c :: w)

/-- The value of a digit, in a base up to 16. -/
def digit (base : Nat) (c : Char) : Option Nat :=
  let n :=
    if '0' ≤ c ∧ c ≤ '9' then c.toNat - '0'.toNat
    else if 'a' ≤ c ∧ c ≤ 'f' then c.toNat - 'a'.toNat + 10
    else if 'A' ≤ c ∧ c ≤ 'F' then c.toNat - 'A'.toNat + 10
    else 16
  if n < base then some n else none

/-- A number continued by digits. -/
def digits (base : Nat) : Nat → List Char → Option Nat
  | n, [] => some n
  | n, c :: rest =>
    match digit base c with
    | some d => digits base (n * base + d) rest
    | none => none

/-- An unsigned number, decimal or `0x` hexadecimal. -/
def number : Token → Option Nat
  | .word ('0' :: 'x' :: c :: rest) => digits 16 0 (c :: rest)
  | .word (c :: rest) => digits 10 0 (c :: rest)
  | _ => none

/-- An operand of an 8-bit field. -/
def field8 (t : Token) : Option Byte := (number t).bind fun n => if n < 256 then some (BitVec.ofNat 8 n) else none

/-- An operand of the 16-bit field. -/
def field16 (t : Token) : Option Half := (number t).bind fun n => if n < 65536 then some (BitVec.ofNat 16 n) else none

/-- A byte operand, a number or an ASCII character in single quotes. -/
def byteOperand : Token → Option Byte
  | .char c => if c.toNat < 128 then some (BitVec.ofNat 8 c.toNat) else none
  | t => field8 t

/-- A flag operand, 0 or 1. -/
def flagOperand (t : Token) : Option Bool := (number t).bind fun n => if n = 0 then some false else if n = 1 then some true else none

/-- Byte operands, one after the other. -/
def byteOperands : List Token → Option (List Byte)
  | [] => some []
  | t :: rest => (byteOperand t).bind fun b => (byteOperands rest).map (b :: ·)

/-- The operands between the commas. -/
def operandList : List Token → Option (List Token)
  | [] => some []
  | [t] => some [t]
  | t :: .comma :: rest => if rest = [] then none else (operandList rest).map (t :: ·)
  | _ => none

/-- The command of a mnemonic with its operands, in the order R74 shows. -/
def readCommand (mnemonic : String) (ops : List Token) : Option Instr :=
  match ops with
  | [] =>
    match mnemonic with
    | "SLI.INIT" => some .sliInit
    | "SLI.HAS" => some .sliHas
    | "SLI.TAKE" => some .sliTake
    | "SLI.RESET" => some .sliReset
    | "FP.INIT" => some .fpInit
    | "FP.RESERVE" => some .fpReserve
    | "FP.HASDATA" => some .fpHasdata
    | "FP.PEEK" => some .fpPeek
    | "FP.RELEASE" => some .fpRelease
    | "FP.OVF" => some .fpOvf
    | "FP.RESET" => some .fpReset
    | _ => none
  | [t] =>
    match mnemonic with
    | "SLI.BYTE" => (byteOperand t).map .sliByte
    | "FP.SETLEN" => (field16 t).map .fpSetlen
    | "FP.COMMIT" => (flagOperand t).map .fpCommit
    | "FP.RDLEN" => (field8 t).map .fpRdlen
    | _ => none
  | [t, u] =>
    match mnemonic with
    | "SLI.READ" => (field8 t).bind fun k => (field16 u).map (.sliRead k)
    | "FP.FILLB" => (byteOperand t).bind fun v => (field16 u).map (.fpFillb v)
    | "FP.READB" => (field8 t).bind fun s => (field16 u).map (.fpReadb s)
    | _ => none
  | _ => none

/-- A port's name. -/
def readPort (name : String) : Option Port :=
  match name with
  | "PU" => some .pu
  | "PR" => some .pr
  | "PF" => some .pf
  | _ => none

/-- What the pieces before an arrow stand for: a pseudo-operation on its port, or a command. DESIGN CHOICE (log entry 9): an
FP.FRAME with more than 65536 byte operands is no line, since the offset of a later one does not fit the x field (R79 is silent). -/
def readSource : List Token → Option Source
  | .word p :: .colon :: .word m :: rest =>
    (readPort (String.ofList p)).bind fun port => (operandList rest).bind fun ops =>
      match port, String.ofList m, ops with
      | .pu, "SLI.LINE", t :: more => (byteOperands (t :: more)).map .line
      | .pr, "FP.FRAME", t :: u :: v :: more =>
        (field16 t).bind fun len => (flagOperand u).bind fun f =>
          if more.length < 65536 then (byteOperands (v :: more)).map (.frame len f) else none
      | port, mnemonic, ops => (readCommand mnemonic ops).map (.command port)
  | _ => none

/-- What the pieces after an arrow say is expected. -/
def readExpected : List Token → Option Expected
  | [.word w] => if w = ['O', 'K'] then some .ok else if w = ['N', 'O', 'N', 'E'] then some .none else none
  | [.word ['O', 'K'], .leftParen, t, .comma, u, .rightParen] =>
    (field8 t).bind fun ra => (field16 u).map (.okFields ra)
  | [.word ['F', 'A', 'U', 'L', 'T'], .leftParen, t, .rightParen] => (field8 t).map .fault
  | _ => none

/-- The pieces before the first arrow, and those after it if there is one. -/
def splitAtArrow : List Token → List Token × Option (List Token)
  | [] => ([], none)
  | .arrow :: rest => ([], some rest)
  | t :: rest => (t :: (splitAtArrow rest).1, (splitAtArrow rest).2)

/-- One line of text: what it stands for, and the response it expects, if it says one (R78). -/
def readLine (text : String) : Option (Source × Option Expected) :=
  (tokens text.toList []).bind fun ts =>
    (readSource (splitAtArrow ts).1).bind fun source =>
      match (splitAtArrow ts).2 with
      | none => some (source, none)
      | some after => (readExpected after).map fun e => (source, some e)

end Sys2Proof.Machine
end

