-- ==== Sys2Proof/Tests/Slice0.lean ====
section
/-! SUPPORT. The model's own tests: expected results are those of 95_test_vectors.md, named at each test; then a witness for every
statement that has hypotheses. -/

namespace Sys2Proof.Tests

open Sys2Proof.Machine

/-! ### Small states -/

/-- The block after SLI.INIT and FP.INIT, C = 10, N = 4, P = 4, LW = 8 (10_state.md R41). -/
def up : State :=
  { cfg := Config.testVectors
    sli := { activeIndex := .b0, writeOffset := 0, completedLength0 := 0, completedLength1 := 0, messageReady := false, lb := [] }
    fp := { head := 0, tail := 0, freeCount := 4, usedCount := 0, overflow := false, payload := [], length := [], crcOk := [] }
    port := .pf, inbox := [], answers := [], events := [], radioOpen := false }

/-- `up` with SerialLineIntake's registers and memory given. -/
def atLine (a : Buf) (w l0 l1 : Nat) (ready : Bool) (lb : List Host.Cell) : State :=
  { up with sli := { activeIndex := a, writeOffset := w, completedLength0 := l0, completedLength1 := l1, messageReady := ready, lb := lb } }

/-- `up` with FramePool's cursors, counters and flag given. -/
def atPool (h t f u : Nat) (ovf : Bool) : State :=
  { up with fp := { up.fp with head := h, tail := t, freeCount := f, usedCount := u, overflow := ovf } }

/-- The next state, where there is one. -/
def nextOf : Host.Outcome State Fault Refusal → Option State
  | .next t => some t
  | .fault _ => none
  | .refused _ => none

/-- The fault, where there is one. -/
def faultOf : Host.Outcome State Fault Refusal → Option Fault
  | .next _ => none
  | .fault f => some f
  | .refused _ => none

/-- One step on a command word offered on a port. -/
def offered (p : Port) (w : Word) (s : State) : Host.Outcome State Fault Refusal :=
  step { s with inbox := .command p w :: s.inbox }

/-- The state after it. -/
def after (p : Port) (w : Word) (s : State) : Option State := nextOf (offered p w s)

/-- The response word to it. -/
def response (p : Port) (w : Word) (s : State) : Option Word := (after p w s).map State.lastAnswer

/-- `a`, `w`, `rdy`, `cl` of 95_test_vectors.md. -/
structure LineView where
  a : Buf
  w : Nat
  rdy : Bool
  cl0 : Nat
  cl1 : Nat
  deriving DecidableEq, Repr

/-- `h`, `t`, `f`, `u`, `ovf` of 95_test_vectors.md. -/
structure PoolView where
  h : Nat
  t : Nat
  f : Nat
  u : Nat
  ovf : Bool
  deriving DecidableEq, Repr

/-- SerialLineIntake's registers. -/
def line (s : State) : LineView :=
  ⟨s.sli.activeIndex, s.sli.writeOffset, s.sli.messageReady, s.sli.completedLength0, s.sli.completedLength1⟩

/-- FramePool's registers. -/
def pool (s : State) : PoolView := ⟨s.fp.head, s.fp.tail, s.fp.freeCount, s.fp.usedCount, s.fp.overflow⟩

/-! ### Ill-formed configurations and operands are refused (93_implementation_defined.md V8, 30_encoding.md R72) -/

theorem test_config_ok : Config.testVectors.WellFormed := by decide
theorem test_config_capacity_low : ¬({ Config.testVectors with capacity := 2 } : Config).WellFormed := by decide
theorem test_config_capacity_high : ¬({ Config.testVectors with capacity := 65536 } : Config).WellFormed := by decide
theorem test_config_slots_low : ¬({ Config.testVectors with slots := 0 } : Config).WellFormed := by decide
theorem test_config_slots_high : ¬({ Config.testVectors with slots := 257 } : Config).WellFormed := by decide
theorem test_config_payload_low : ¬({ Config.testVectors with payloadBytes := 0 } : Config).WellFormed := by decide
theorem test_config_payload_high : ¬({ Config.testVectors with payloadBytes := 65536 } : Config).WellFormed := by decide
theorem test_config_length_low : ¬({ Config.testVectors with lenBits := 0 } : Config).WellFormed := by decide
theorem test_config_length_high : ¬({ Config.testVectors with lenBits := 17 } : Config).WellFormed := by decide
/-- V-SLI-12 to V-SLI-14. -/
theorem test_operands_read : Instr.WellFormed Config.testVectors (.sliRead 1#8 9#16) = true ∧
    Instr.WellFormed Config.testVectors (.sliRead 0#8 10#16) = false ∧
    Instr.WellFormed Config.testVectors (.sliRead 2#8 0#16) = false := by decide
/-- V-FP-10, V-FP-19. -/
theorem test_operands_producer : Instr.WellFormed Config.testVectors (.fpFillb 0xAA#8 3#16) = true ∧
    Instr.WellFormed Config.testVectors (.fpFillb 0xAA#8 4#16) = false ∧
    Instr.WellFormed Config.testVectors (.fpSetlen 255#16) = true ∧
    Instr.WellFormed Config.testVectors (.fpSetlen 256#16) = false := by decide
/-- V-FP-17, V-FP-18. -/
theorem test_operands_consumer : Instr.WellFormed Config.testVectors (.fpRdlen 3#8) = true ∧
    Instr.WellFormed Config.testVectors (.fpRdlen 4#8) = false ∧
    Instr.WellFormed Config.testVectors (.fpReadb 3#8 3#16) = true ∧
    Instr.WellFormed Config.testVectors (.fpReadb 3#8 4#16) = false ∧
    Instr.WellFormed Config.testVectors (.fpReadb 4#8 3#16) = false := by decide

/-! ### Decoding: the words of 95_test_vectors.md 2.1 -/

theorem test_decode_sliInit : decode 0x10000000#32 = .command .sliInit := by decide
theorem test_decode_sliByte : decode 0x110A0000#32 = .command (.sliByte 0x0A#8) ∧
    decode 0x11FF0000#32 = .command (.sliByte 0xFF#8) := by decide
theorem test_decode_sliHas : decode 0x12000000#32 = .command .sliHas := by decide
theorem test_decode_sliTake : decode 0x13000000#32 = .command .sliTake := by decide
theorem test_decode_sliRead : decode 0x14000002#32 = .command (.sliRead 0#8 2#16) ∧
    decode 0x14010009#32 = .command (.sliRead 1#8 9#16) := by decide
theorem test_decode_sliReset : decode 0x15000000#32 = .command .sliReset := by decide
theorem test_decode_fpInit : decode 0x20000000#32 = .command .fpInit := by decide
theorem test_decode_fpReserve : decode 0x21000000#32 = .command .fpReserve := by decide
theorem test_decode_fpFillb : decode 0x22AA0000#32 = .command (.fpFillb 0xAA#8 0#16) ∧
    decode 0x225C0003#32 = .command (.fpFillb 0x5C#8 3#16) := by decide
theorem test_decode_fpSetlen : decode 0x23000003#32 = .command (.fpSetlen 3#16) ∧
    decode 0x230000FF#32 = .command (.fpSetlen 255#16) := by decide
theorem test_decode_fpCommit : decode 0x24000000#32 = .command (.fpCommit false) ∧
    decode 0x24010000#32 = .command (.fpCommit true) := by decide
theorem test_decode_fpHasdata : decode 0x25000000#32 = .command .fpHasdata := by decide
theorem test_decode_fpPeek : decode 0x26000000#32 = .command .fpPeek := by decide
theorem test_decode_fpRdlen : decode 0x27010000#32 = .command (.fpRdlen 1#8) := by decide
theorem test_decode_fpReadb : decode 0x28010002#32 = .command (.fpReadb 1#8 2#16) := by decide
theorem test_decode_fpRelease : decode 0x29000000#32 = .command .fpRelease := by decide
theorem test_decode_fpOvf : decode 0x2A000000#32 = .command .fpOvf := by decide
theorem test_decode_fpReset : decode 0x2B000000#32 = .command .fpReset := by decide
/-- The words of 2.1 that must be refused. -/
theorem test_decode_refused :
    decode 0x00000000#32 = .illegal .unassignedOp ∧ decode 0xFFFFFFFF#32 = .illegal .unassignedOp ∧
    decode 0x16000000#32 = .illegal .reservedOp ∧ decode 0x2C000000#32 = .illegal .reservedOp ∧
    decode 0x13000001#32 = .illegal .nonZeroField ∧ decode 0x12010000#32 = .illegal .nonZeroField ∧
    decode 0x11410001#32 = .illegal .nonZeroField ∧ decode 0x24020000#32 = .illegal .nonZeroField ∧
    decode 0x23010003#32 = .illegal .nonZeroField := by decide
/-- The words of 2.1, encoded. -/
theorem test_encode : encode (.sliByte 0x41#8) = 0x11410000#32 ∧ encode (.sliRead 1#8 9#16) = 0x14010009#32 ∧
    encode (.fpFillb 0x5C#8 3#16) = 0x225C0003#32 ∧ encode (.fpSetlen 255#16) = 0x230000FF#32 ∧
    encode (.fpCommit true) = 0x24010000#32 ∧ encode (.fpReadb 1#8 2#16) = 0x28010002#32 := by decide
/-- The host's two questions about a table word. -/
theorem test_table_word : decodeTableWord 32 0x14000000 = some (.sliRead 0#8 0#16) ∧ decodeTableWord 32 0x16000000 = none ∧
    ((nextOf (step (State.reset.withFetchWord 32 0x20000000))).map fun t => (pool t, t.answers, t.inbox))
      = some (⟨0, 0, 4, 0, false⟩, [(.pf, 0x00000000#32)], []) := by decide

/-! ### Ports and faults (95_test_vectors.md 2.1) -/

theorem test_wrong_port : faultOf (offered .pf 0x11410000#32 up) = some .wrongPort ∧
    faultOf (offered .pr 0x11410000#32 up) = some .wrongPort ∧ faultOf (offered .pu 0x13000000#32 up) = some .wrongPort ∧
    faultOf (offered .pf 0x24010000#32 up) = some .wrongPort ∧ faultOf (offered .pr 0x29000000#32 up) = some .wrongPort ∧
    faultOf (offered .pu 0x2B000000#32 up) = some .wrongPort := by decide
theorem test_fault_priority : faultOf (offered .pf 0x11410001#32 up) = some .illegalCommand ∧
    faultOf (offered .pu 0x14020000#32 up) = some .wrongPort := by decide
/-- The response words of 2.1; a fault is answered and changes nothing (60_exceptions.md R151). -/
theorem test_fault_answer : (advance { up with inbox := [.command .pf 0x26000000#32] }) =
    { up with answers := [(.pf, 0xF0000004#32)] } := by decide
theorem test_response_words : okWord 0x0A#8 0#16 = 0x000A0000#32 ∧ okWord 1#8 4#16 = 0x00010004#32 ∧
    noneWord = 0x10000000#32 ∧ Fault.word .noFreeSlot = 0xF0000006#32 := by decide
/-- V-SCH-1, V-SCH-2, V-SCH-4: inside a radio handler invocation a PU command runs and a PF command has no move; a NONE answer
ends the invocation. -/
theorem test_schedule_byte_inside : ((run 3 { up with inbox :=
      [.command .pr 0x21000000#32, .command .pu 0x11410000#32, .command .pr 0x24010000#32] }) |> nextOf |>.map pool)
    = some ⟨1, 0, 3, 1, false⟩ := by decide
theorem test_schedule_release_inside : nextOf (run 2 { up with inbox :=
      [.command .pr 0x21000000#32, .command .pf 0x29000000#32] }) = none := by decide
theorem test_schedule_none_ends : ((run 2 { atPool 0 0 0 4 false with inbox :=
      [.command .pr 0x21000000#32, .command .pf 0x2A000000#32] }) |> nextOf |>.map State.lastAnswer)
    = some 0x00010000#32 := by decide

/-! ### SerialLineIntake (95_test_vectors.md 2.2) -/

/-- V-SLI-11. -/
theorem test_sliInit : ((after .pf 0x10000000#32 (atLine .b1 2 5 3 true [(0, 0x41#8)])).map fun t => (line t, t.sli.lb)) =
    some (⟨.b0, 0, false, 0, 0⟩, [(0, 0x41#8)]) := by decide
/-- V-SLI-1, V-SLI-4. -/
theorem test_sliByte_ordinary : ((after .pu 0x11000000#32 up).map fun t => (line t, t.sli.lb)) =
      some (⟨.b0, 1, false, 0, 0⟩, [(0, 0x00#8)]) ∧
    ((after .pu 0x11370000#32 (atLine .b0 7 0 0 false [])).map fun t => (t.sli.writeOffset, t.lbWritten .b0 7)) =
      some (8, some 0x37#8) := by decide
/-- V-SLI-2, V-SLI-3, V-SLI-7. -/
theorem test_sliByte_terminator : ((after .pu 0x110D0000#32 up).map fun t => (line t, t.sli.lb)) =
      some (⟨.b1, 0, true, 3, 0⟩, [(0, 0x0D#8), (1, 0x00#8), (2, 0x00#8)]) ∧
    ((after .pu 0x110A0000#32 (atLine .b0 7 0 0 false [])).map fun t => (line t, t.lbWritten .b0 9)) =
      some (⟨.b1, 0, true, 10, 0⟩, some 0x00#8) ∧
    ((after .pu 0x110A0000#32 (atLine .b1 3 5 0 false [])).map fun t => (line t, t.lbWritten .b1 3)) =
      some (⟨.b0, 0, true, 5, 6⟩, some 0x0A#8) := by decide
/-- V-SLI-5, V-SLI-6. -/
theorem test_sliByte_overlong : ((after .pu 0x110A0000#32 (atLine .b0 8 0 0 false [])).map fun t => (line t, t.sli.lb)) =
      some (⟨.b0, 0, true, 0, 1⟩, []) ∧
    ((after .pu 0x11410000#32 (atLine .b1 8 6 4 true [])).map line) = some ⟨.b1, 0, true, 1, 4⟩ := by decide
/-- V-SLI-15, V-SLI-16: C = 3. -/
theorem test_sliByte_smallest : ((after .pu 0x110A0000#32 { up with cfg := { up.cfg with capacity := 3 } }).map line) =
      some ⟨.b1, 0, true, 3, 0⟩ ∧
    ((after .pu 0x11420000#32 { atLine .b0 1 0 0 false [] with cfg := { up.cfg with capacity := 3 } }).map line) =
      some ⟨.b0, 0, true, 0, 1⟩ := by decide
/-- V-SLI-17: another terminator set. -/
theorem test_sliByte_other_terminators :
    ((after .pu 0x110A0000#32 { up with cfg := { up.cfg with terminators := [0x3B#8] } }).map line) =
      some ⟨.b0, 1, false, 0, 0⟩ := by decide
/-- R96's example, V-SLI-8. -/
theorem test_sliHas : response .pf 0x12000000#32 (atLine .b1 0 5 0 true []) = some 0x00010000#32 ∧
    response .pf 0x12000000#32 up = some 0x00000000#32 := by decide
/-- V-SLI-8, V-SLI-9. -/
theorem test_sliTake : response .pf 0x13000000#32 up = some 0x00010000#32 ∧
    ((after .pf 0x13000000#32 (atLine .b1 0 5 0 true [])).map fun t => (t.lastAnswer, line t)) =
      some (0x00000005#32, ⟨.b1, 0, false, 5, 0⟩) := by decide
/-- R98's example, V-SLI-13, V-SLI-14. -/
theorem test_sliRead : response .pf 0x14000002#32 (atLine .b1 0 5 0 true [(2, 0x0A#8)]) = some 0x000A0000#32 ∧
    faultOf (offered .pf 0x1400000A#32 up) = some .badIndex ∧ faultOf (offered .pf 0x14020000#32 up) = some .badIndex := by decide
/-- V-SLI-10. -/
theorem test_sliReset : ((after .pf 0x15000000#32 (atLine .b1 2 5 0 true [])).map fun t => (line t, t.events)) =
    some (⟨.b1, 2, false, 5, 0⟩, [.flushRx, .enableRxIrq]) := by decide

/-! ### FramePool (95_test_vectors.md 2.3) -/

/-- R110's example. -/
theorem test_fpInit : ((after .pf 0x20000000#32 (atPool 3 1 2 2 true)).map pool) = some ⟨0, 0, 4, 0, false⟩ := by decide
/-- V-FP-1, V-FP-4, V-FP-16. -/
theorem test_fpReserve : ((after .pr 0x21000000#32 (atPool 2 0 1 3 true)).map fun t => (t.lastAnswer, pool t)) =
      some (0x00020000#32, ⟨2, 0, 1, 3, true⟩) ∧
    ((after .pr 0x21000000#32 (atPool 0 0 0 4 false)).map fun t => (t.lastAnswer, pool t)) =
      some (0x10000000#32, ⟨0, 0, 0, 4, true⟩) := by decide
/-- R112's example. -/
theorem test_fpFillb : ((after .pr 0x22AA0000#32 (atPool 1 0 3 1 false)).map fun t => (t.payloadWritten 1 0, t.payloadWritten 0 0)) =
    some (some 0xAA#8, none) := by decide
/-- V-FP-8, V-FP-10. -/
theorem test_fpFillb_faults : faultOf (offered .pr 0x22AA0000#32 (atPool 0 0 0 4 false)) = some .noFreeSlot ∧
    faultOf (offered .pr 0x22AA0004#32 (atPool 0 0 0 4 false)) = some .badIndex := by decide
/-- V-FP-20. -/
theorem test_fpSetlen : ((after .pr 0x230000C8#32 (atPool 2 0 2 2 false)).map fun t => t.fp.length) =
    some [(2, 200#16)] := by decide
/-- V-FP-9, V-FP-19. -/
theorem test_fpSetlen_faults : faultOf (offered .pr 0x23000001#32 (atPool 0 0 0 4 false)) = some .noFreeSlot ∧
    faultOf (offered .pr 0x23000100#32 up) = some .badIndex := by decide
/-- V-FP-2, S6. -/
theorem test_fpCommit : ((after .pr 0x24010000#32 (atPool 3 1 2 2 false)).map fun t => (pool t, t.fp.crcOk)) =
      some (⟨0, 1, 1, 3, false⟩, [(3, true)]) ∧
    ((after .pr 0x24000000#32 (atPool 2 0 2 2 false)).map fun t => (pool t, t.fp.crcOk)) =
      some (⟨2, 0, 2, 2, false⟩, [(2, false)]) := by decide
/-- V-FP-6, V-FP-7; V-FP-24: N = 256. -/
theorem test_fpCommit_edges : faultOf (offered .pr 0x24010000#32 (atPool 0 0 0 4 true)) = some .noFreeSlot ∧
    faultOf (offered .pr 0x24000000#32 (atPool 0 0 0 4 true)) = some .noFreeSlot ∧
    ((after .pr 0x24010000#32 { atPool 255 0 1 255 false with cfg := { up.cfg with slots := 256 } }).map pool) =
      some ⟨0, 0, 0, 256, false⟩ := by decide
/-- V-FP-13, V-FP-14. -/
theorem test_fpHasdata : response .pf 0x25000000#32 (atPool 1 1 4 0 false) = some 0x00000000#32 ∧
    response .pf 0x25000000#32 (atPool 2 1 3 1 false) = some 0x00010000#32 := by decide
/-- V-FP-11, V-FP-14. -/
theorem test_fpPeek : ((after .pf 0x26000000#32 (atPool 2 1 3 1 false)).map fun t => (t.lastAnswer, pool t)) =
      some (0x00010000#32, ⟨2, 1, 3, 1, false⟩) ∧
    faultOf (offered .pf 0x26000000#32 (atPool 1 1 4 0 false)) = some .peekEmpty := by decide
/-- R117's example, V-FP-17. -/
theorem test_fpRdlen : response .pf 0x27010000#32 { up with fp := { up.fp with length := [(1, 3#16)], crcOk := [(1, true)] } } =
      some 0x00010003#32 ∧
    faultOf (offered .pf 0x27040000#32 up) = some .badIndex := by decide
/-- R118's example, V-FP-18. -/
theorem test_fpReadb : response .pf 0x28010002#32 { up with fp := { up.fp with payload := [(6, 0xCC#8)] } } =
      some 0x00CC0000#32 ∧
    faultOf (offered .pf 0x28030004#32 up) = some .badIndex := by decide
/-- V-FP-3, V-FP-12, V-FP-15. -/
theorem test_fpRelease : ((after .pf 0x29000000#32 (atPool 3 3 0 4 false)).map pool) = some ⟨3, 0, 1, 3, false⟩ ∧
    ((after .pf 0x29000000#32 (atPool 3 1 2 2 true)).map pool) = some ⟨3, 2, 3, 1, true⟩ ∧
    faultOf (offered .pf 0x29000000#32 (atPool 1 1 4 0 false)) = some .releaseEmpty := by decide
/-- V-FP-23: N = 1. -/
theorem test_fpRelease_single :
    ((after .pf 0x29000000#32 { atPool 0 0 0 1 true with cfg := { up.cfg with slots := 1 } }).map pool) =
      some ⟨0, 0, 1, 0, true⟩ := by decide
/-- R120's example. -/
theorem test_fpOvf : ((after .pf 0x2A000000#32 (atPool 0 0 0 4 true)).map fun t => (t.lastAnswer, t.fp.overflow)) =
    some (0x00010000#32, true) := by decide
/-- S7, and R121's example. -/
theorem test_fpReset : ((after .pf 0x2B000000#32 (atPool 1 3 2 2 true)).map pool) = some ⟨0, 0, 4, 0, false⟩ ∧
    ((after .pf 0x2B000000#32 (atPool 1 1 0 4 true)).map pool) = some ⟨0, 0, 4, 0, false⟩ := by decide

/-! ### Text (30_encoding.md R78, R79) and the coordinator (60_exceptions.md R160 to R162) -/

/-- Lines as 95_test_vectors.md writes them. -/
theorem test_text_command :
    readLine "PF: SLI.READ 0, 2 -> OK(0x0A, 0)" = some (.command .pf (.sliRead 0#8 2#16), some (.okFields 0x0A#8 0#16)) ∧
    readLine "PU: SLI.BYTE 'A' ; the first byte" = some (.command .pu (.sliByte 0x41#8), none) ∧
    readLine "PF: FP.PEEK -> FAULT(0x04)" = some (.command .pf .fpPeek, some (.fault 0x04#8)) ∧
    readLine "PR: FP.RESERVE -> NONE" = some (.command .pr .fpReserve, some .none) ∧
    readLine "PF: SLI.READ 0" = none ∧ readLine "PR: FP.COMMIT 2" = none := by decide
/-- Program 2 lines 2 to 9 (cut), program 3 lines 7 to 11: the words they stand for. -/
theorem test_text_pseudo :
    ((readLine "PU: SLI.LINE '0','1'").map fun r => r.1.opening.map inputAt) =
      some [.command .pu 0x11300000#32, .command .pu 0x11310000#32] ∧
    ((readLine "PR: FP.FRAME 2, 1, 0xA2, 0xB2").map fun r => (r.1.opening.map inputAt, (r.1.continuation 0x00010000#32).map inputAt,
        r.1.continuation 0x10000000#32)) =
      some ([.command .pr 0x21000000#32],
        [.command .pr 0x22A20000#32, .command .pr 0x22B20001#32, .command .pr 0x23000002#32, .command .pr 0x24010000#32],
        []) := by decide
/-- R161, R162, and the view of program 1 line 7. -/
theorem test_coordinator : Phase.after up.cfg 0x00010000#32 .checkOverflow = .resetPool ∧ Phase.resetPool.command = .fpReset ∧
    Phase.after up.cfg 0x00010001#32 .take = .resetLine ∧ Phase.resetLine.command = .sliReset ∧
    Phase.after up.cfg 0x00000005#32 .take = .readView 0#8 0 5 := by decide

/-! ### Witnesses: a state and operands that meet the hypotheses of each statement that has any -/

/-- A busy block: a message of two bytes stands in buffer 0, two bytes of the next one in buffer 1, and slots 1 and 2 hold frames. -/
def busy : State :=
  { atLine .b1 2 5 0 true
      [(0, 0x41#8), (1, 0x42#8), (2, 0x0A#8), (3, 0x00#8), (4, 0x00#8), (10, 0x43#8), (11, 0x44#8)] with
    fp := { head := 3, tail := 1, freeCount := 2, usedCount := 2, overflow := false,
            payload := [(4, 0xAA#8)], length := [(1, 2#16)], crcOk := [(1, true), (2, true)] } }

/-- `busy` with inputs. -/
def busyWith (inbox : List Input) : State := { busy with inbox := inbox }

/-- The invariants do not speak of the inputs. -/
theorem test_busy_message (inbox : List Input) : MessageAt (busyWith inbox) .b0 5 where
  text off h := by
    obtain rfl | rfl : off = 0 ∨ off = 1 := by omega
    · exact ⟨0x41#8, rfl, (by decide : 0x41#8 ∉ Config.testVectors.terminators)⟩
    · exact ⟨0x42#8, rfl, (by decide : 0x42#8 ∉ Config.testVectors.terminators)⟩
  terminator := ⟨0x0A#8, rfl, (by decide : 0x0A#8 ∈ Config.testVectors.terminators)⟩
  trailer1 := rfl
  trailer2 := rfl

theorem test_busy_framed (inbox : List Input) : Framed (busyWith inbox) where
  ranges := ⟨(by decide : 2 + 2 ≤ 10), fun k =>
    match k with
    | .b0 => .inr (.inr (by decide : 3 ≤ 5 ∧ 5 ≤ 10))
    | .b1 => .inl rfl⟩
  partialText off h := by
    obtain rfl | rfl : off = 0 ∨ off = 1 := by
      have h' : off < 2 := h
      omega
    · exact ⟨0x43#8, rfl, (by decide : 0x43#8 ∉ Config.testVectors.terminators)⟩
    · exact ⟨0x44#8, rfl, (by decide : 0x44#8 ∉ Config.testVectors.terminators)⟩
  completed _ := test_busy_message inbox

theorem test_busy_pool (inbox : List Input) : PoolOk (busyWith inbox) :=
  ⟨(by decide : 1 ≤ 4), (by decide : 2 + 2 = 4), (by decide : 1 < 4), (by decide : 3 = (1 + 2) % 4)⟩

theorem test_busy_window (inbox : List Input) : WindowCrc (busyWith inbox) :=
  (by decide : ∀ slot ∈ busy.window, Memory.read busy.fp.crcOk slot = some true)

theorem test_busy_ranged (inbox : List Input) : Ranged (busyWith inbox) :=
  ⟨test_config_ok, (by decide : 2 + 2 ≤ 10), (by decide : 5 ≤ 10), (by decide : 0 ≤ 10), (by decide : 3 < 4), (by decide : 1 < 4)⟩

theorem test_busy_memory (inbox : List Input) : MemoryOk (busyWith inbox) :=
  ⟨(by decide : Memory.wf busy.sli.lb = true), (by decide : Memory.wf busy.fp.payload = true),
    (by decide : Memory.wf busy.fp.length = true), (by decide : Memory.wf busy.fp.crcOk = true),
    (by decide : ∀ c ∈ busy.sli.lb, c.1 < 20), (by decide : ∀ c ∈ busy.fp.payload, c.1 < 16),
    (by decide : ∀ c ∈ busy.fp.length, c.1 < 4 ∧ c.2.toNat < 2 ^ 8), (by decide : ∀ c ∈ busy.fp.crcOk, c.1 < 4)⟩

theorem test_witness_EncodeOfDecode : decode 0x14010009#32 = .command (.sliRead 1#8 9#16) := by decide
theorem test_witness_DecodeAgreesWithTable : ∃ r ∈ opcodeTable, 0x14010009#32 &&& r.mask = r.pattern ∧
    r.mnemonic = "SLI.READ" ∧ r.port = .pf := by decide
theorem test_witness_IllegalWords :
    (∀ op ∈ [0x00#8, 0x0F#8, 0x16#8, 0x1F#8, 0x2C#8, 0x2F#8, 0x30#8, 0xFF#8],
      ¬(0x10 ≤ op.toNat ∧ op.toNat ≤ 0x15) ∧ ¬(0x20 ≤ op.toNat ∧ op.toNat ≤ 0x2B)) ∧
    ¬(0#8 = 0#8 ∧ 1#16 = 0#16) ∧ 1#16 ≠ 0#16 ∧ ¬((2#8).toNat ≤ 1 ∧ 0#16 = 0#16) ∧ 1#8 ≠ 0#8 := by decide
theorem test_witness_StepRunsTheDecodedCommand :
    ¬(Port.pf = .pf ∧ (busyWith [.command .pf 0x26000000#32]).radioOpen = true) ∧ decode 0x26000000#32 = .command .fpPeek ∧
    (∃ u, exec .fpPeek { busyWith [.command .pf 0x26000000#32] with port := .pf, inbox := [] } = .next u) ∧
    exec .fpPeek { up with port := .pf, inbox := [] } = .fault .peekEmpty :=
  ⟨by decide, by decide, ⟨_, rfl⟩, rfl⟩
theorem test_witness_StepsThatExecuteNothing : up.cfg.WellFormed ∧ decode 0x16000000#32 = .illegal .reservedOp ∧
    ¬({ up with cfg := { up.cfg with slots := 0 } } : State).cfg.WellFormed ∧ up.inbox = [] ∧
    ({ busyWith [.radioReturn] with radioOpen := true } : State).inbox = [.radioReturn] := by decide
theorem test_witness_NoForegroundInsideHandler :
    (∃ t, step { busyWith [.command .pu 0x11410000#32] with radioOpen := true } = .next t) ∧
    busy.cfg.WellFormed ∧ step { busyWith [.command .pf 0x29000000#32] with radioOpen := true } = .refused .insideRadioHandler :=
  ⟨⟨_, rfl⟩, by decide, rfl⟩
theorem test_witness_WrongPortFaults : up.port ≠ (Instr.sliByte 0#8).port ∧ up.port ≠ Instr.fpReserve.port := by decide
theorem test_witness_BadIndexExactly : up.port = (Instr.fpRdlen 4#8).port ∧ Instr.WellFormed up.cfg (.fpRdlen 4#8) = false ∧
    up.fp.head < up.cfg.slots ∧ exec (.fpRdlen 4#8) up = .fault .badIndex := ⟨by decide, by decide, by decide, rfl⟩
theorem test_witness_StateDependentFaults : (up.port = .pf ∧ up.fp.usedCount = 0) ∧
    ({ atPool 0 0 0 4 false with port := .pr } : State).fp.freeCount = 0 ∧ (3#16).toNat < up.cfg.payloadBytes ∧
    (255#16).toNat < 2 ^ up.cfg.lenBits := by decide
theorem test_witness_FaultsOnlyAsListed : exec .fpPeek up = .fault .peekEmpty ∧ exec .fpRelease up = .fault .releaseEmpty ∧
    exec (.sliByte 0#8) up = .fault .wrongPort ∧ exec (.sliRead 2#8 0#16) up = .fault .badIndex ∧
    exec (.fpCommit false) { atPool 0 0 0 4 false with port := .pr } = .fault .noFreeSlot ∧
    exec (.fpCommit true) { atPool 4 0 4 0 false with port := .pr } = .fault .badIndex := ⟨rfl, rfl, rfl, rfl, rfl, rfl⟩
theorem test_witness_FaultAnswerChangesNothing : step { up with inbox := [.command .pf 0x26000000#32] } = .fault .peekEmpty := rfl
/-- The port of the statements about one PF command, and of those about one PR command. -/
theorem test_witness_ports : busy.port = .pf ∧ ({ busy with port := .pr } : State).port = .pr := by decide
/-- The last offset at which a byte is stored, and the first at which it is not. -/
theorem test_witness_SliBytePaths : ({ up with port := .pu } : State).port = .pu ∧ 7 + 2 < up.cfg.capacity ∧
    up.cfg.capacity ≤ 8 + 2 ∧ 0x41#8 ∉ up.cfg.terminators ∧ 0x0D#8 ∈ up.cfg.terminators := by decide
theorem test_witness_SliReadResult : (1#8).toNat = Buf.b1.index ∧ (0#8).toNat = Buf.b0.index ∧ (9#16).toNat < up.cfg.capacity := by
  decide
theorem test_witness_DoubleBufferExclusive : (∃ t, exec (.sliByte 0x0A#8) { busy with port := .pu } = .next t) ∧
    9 < busy.cfg.capacity ∧ ∃ t, exec .sliTake busy = .next t := ⟨⟨_, rfl⟩, by decide, ⟨_, rfl⟩⟩
/-- The empty line and the longest line. -/
theorem test_witness_LineCompletesMessage : up.sli.writeOffset = 0 ∧ 0x0A#8 ∈ up.cfg.terminators ∧
    (∀ b ∈ List.replicate 7 0x41#8, b ∉ up.cfg.terminators) ∧ (List.replicate 7 0x41#8).length + 3 ≤ up.cfg.capacity ∧
    ({ up with inbox := lineInputs ([] ++ [0x0A#8]) } : State).inbox = lineInputs ([] ++ [0x0A#8]) ++ [] := by decide
theorem test_witness_SecondLineOverwritesFirst : up.radioOpen = false ∧ up.sli.writeOffset = 0 ∧
    (∀ b ∈ [0x41#8], b ∉ up.cfg.terminators) ∧ 0x0A#8 ∈ up.cfg.terminators ∧ [0x41#8].length + 3 ≤ up.cfg.capacity ∧
    (∀ b ∈ [0x42#8], b ∉ up.cfg.terminators) ∧
    ({ up with inbox := lineInputs [0x41#8, 0x0A#8] ++ (lineInputs [0x42#8, 0x0A#8] ++ [inputOf .sliTake]) } : State).inbox =
      lineInputs ([0x41#8] ++ [0x0A#8]) ++ (lineInputs ([0x42#8] ++ [0x0A#8]) ++ [inputOf .sliTake]) := by decide
theorem test_witness_OverlongAfterCapacity : up.sli.writeOffset = 0 ∧ (∀ c ∈ List.replicate 8 0x30#8, c ∉ up.cfg.terminators) ∧
    (List.replicate 8 0x30#8).length + 2 = up.cfg.capacity := by decide
theorem test_witness_InitEstablishesInvariants : busy.port = .pf ∧ busy.cfg.WellFormed := by decide
/-- A byte that completes the message of buffer 1. -/
theorem test_witness_FramingKept : ∃ t, step (busyWith [.command .pu 0x110A0000#32]) = .next t := ⟨_, rfl⟩
/-- A view to take; a terminator at the last offset with room; a step that flips the buffers, and SLI.INIT, which may. -/
theorem test_witness_TakenViewIsMessage : (busy.port = .pf ∧ 3 ≤ busy.completedLength busy.sli.activeIndex.other) ∧
    (busy.sli.writeOffset + 2 < busy.cfg.capacity ∧ 0x0A#8 ∈ busy.cfg.terminators ∧ 7 + 2 < busy.cfg.capacity) ∧
    (∃ t, exec (.sliByte 0x0A#8) { busy with port := .pu } = .next t) ∧
    (∃ t, step (busyWith [.command .pu 0x110A0000#32]) = .next t ∧ t.sli.activeIndex ≠ .b1) ∧
    ∃ t, step (busyWith [.command .pf 0x10000000#32]) = .next t ∧ t.sli.activeIndex ≠ .b1 :=
  ⟨by decide, by decide, ⟨_, rfl⟩, ⟨_, rfl, by decide⟩, ⟨_, rfl, by decide⟩⟩
theorem test_witness_FpReserveResult : (atPool 0 0 0 4 false).fp.freeCount = 0 ∧ busy.fp.freeCount ≠ 0 := by decide
theorem test_witness_FpProducerResults : busy.fp.head < busy.cfg.slots ∧ busy.fp.head + 1 = busy.cfg.slots ∧
    (3#16).toNat < busy.cfg.payloadBytes ∧ (255#16).toNat < 2 ^ busy.cfg.lenBits ∧ busy.fp.freeCount ≠ 0 := by decide
theorem test_witness_FpConsumerResults : busy.fp.usedCount ≠ 0 ∧ busy.fp.tail < busy.cfg.slots ∧ (3#8).toNat < busy.cfg.slots ∧
    (3#16).toNat < busy.cfg.payloadBytes ∧ (atPool 3 3 0 4 false).fp.tail + 1 = up.cfg.slots := by decide
/-- A frame joins the pool, and a frame leaves it. -/
theorem test_witness_PoolConserved : (∃ t, step (busyWith [.command .pr 0x24010000#32]) = .next t) ∧
    ∃ t, step (busyWith [.command .pf 0x29000000#32]) = .next t := ⟨⟨_, rfl⟩, ⟨_, rfl⟩⟩
theorem test_witness_WindowIsFifo : (∃ t, exec (.fpCommit true) { busy with port := .pr } = .next t) ∧
    (∃ t, exec .fpRelease busy = .next t) ∧ (∃ t, exec .fpPeek busy = .next t) ∧ busy.cfg.slots ≤ 256 ∧ 1 ∈ busy.window :=
  ⟨⟨_, rfl⟩, ⟨_, rfl⟩, ⟨_, rfl⟩, by decide, by decide⟩
/-- N = 1: the pool overflows after one frame. -/
theorem test_witness_OverflowAfterCapacityCommits :
    let s : State := { atPool 0 0 1 0 false with cfg := { up.cfg with slots := 1 } }
    s.cfg.WellFormed ∧ s.fp.freeCount + s.fp.usedCount = s.cfg.slots ∧ s.fp.usedCount = 0 ∧
    s.fp.head = (s.fp.tail + s.fp.usedCount) % s.cfg.slots ∧
    [inputOf .fpReserve, inputOf (.fpCommit true), inputOf .fpReserve] =
      (List.replicate s.cfg.slots [inputOf .fpReserve, inputOf (.fpCommit true)]).flatten ++ [inputOf .fpReserve] := by decide
theorem test_witness_OnlyNamedCommandsWrite : ∃ t, exec .fpHasdata busy = .next t := ⟨_, rfl⟩
/-- The flag set by a full pool's FP.RESERVE, and cleared by FP.RESET. -/
theorem test_witness_OverflowIsSticky :
    (∃ t, step { atPool 0 0 0 4 false with inbox := [.command .pr 0x21000000#32] } = .next t ∧ t.fp.overflow ≠ false) ∧
    ∃ t, step { atPool 0 0 0 4 true with inbox := [.command .pf 0x2B000000#32] } = .next t ∧ t.fp.overflow ≠ true :=
  ⟨⟨_, rfl, by decide⟩, ⟨_, rfl, by decide⟩⟩
theorem test_witness_UnitsAreIndependent : (∃ t, exec .sliReset busy = .next t) ∧ ∃ t, exec .fpReset busy = .next t :=
  ⟨⟨_, rfl⟩, ⟨_, rfl⟩⟩
theorem test_witness_HandlersCommute :
    ∃ t, run 2 (busyWith [.command .pu 0x110A0000#32, .command .pr 0x24010000#32]) = .next t := ⟨_, rfl⟩
theorem test_witness_ReadsAreIdempotent : (∃ t, exec .fpPeek busy = .next t) ∧
    (∃ t, exec .fpReserve { busy with port := .pr } = .next t) ∧ busy.fp.freeCount ≠ 0 := ⟨⟨_, rfl⟩, ⟨_, rfl⟩, by decide⟩
/-- For the statements about every step that completes. -/
theorem test_witness_steps : (∃ t, step (busyWith [.radioReturn]) = .next t) ∧
    ∃ t, step (busyWith [.command .pf 0x13000000#32]) = .next t := ⟨⟨_, rfl⟩, ⟨_, rfl⟩⟩

/-- What a correct host knows of `busy`. -/
def busyDuty : HostDuty := { sliUp := true, fpUp := true, ready := true, data := true, inHandler := false }

theorem test_busy_agrees (inbox : List Input) : Agrees busyDuty (busyWith inbox) where
  config := test_config_ok
  sli _ := test_busy_framed inbox
  pool _ := test_busy_pool inbox
  crc _ := test_busy_window inbox
  data _ := ⟨rfl, (by decide : 2 ≠ 0)⟩
  handler h := by cases h
  schedule := rfl

theorem test_witness_DutifulCommandCompletes : busyDuty.permits .fpPeek = true ∧ busyDuty.permits .sliTake = true ∧
    busyDuty.permits (.fpFillb 0#8 0#16) = false ∧
    (busyDuty.after (okWord 3#8 0#16) .fpReserve).permits (.fpFillb 0#8 0#16) = true := by decide
theorem test_witness_CoordinatorCommandCompletes : Phase.peek.Knows busy.cfg busyDuty ∧
    (Phase.readPayload 1#8 3 1).Knows busy.cfg busyDuty ∧ (Phase.readView 0#8 0 5).Knows busy.cfg busyDuty ∧
    (Instr.sliByte 0#8).port ≠ .pf :=
  ⟨rfl, ⟨rfl, by decide, by decide, by decide⟩, ⟨by decide, by decide, by decide⟩, by decide⟩
/-- SLI.INIT, then a byte. -/
theorem test_witness_DutifulRunNeverStops :
    Dutiful 2 HostDuty.start { State.powerOn Config.testVectors with inbox := [inputOf .sliInit, inputOf (.sliByte 0x41#8)] } := by
  refine ⟨.sliInit, by decide, rfl, rfl, rfl, ?_⟩
  rintro t ⟨⟩
  exact ⟨.sliByte 0x41#8, by decide, rfl, rfl, rfl, fun _ _ => trivial⟩

end Sys2Proof.Tests
end

/-! ### Units and parameters (00_scope.md R2, R15): what a completing command can read and write -/

namespace Sys2Proof.Machine

/-! #### SerialLineIntake does not see FramePool -/

/-- SLI.BYTE reads nothing of the pool and writes only its own unit (40_serial_line_intake.md R92 to R94). -/
theorem onByte_replaceFp (b : Byte) (s : State) (fp : Fp) :
    onByte b { s with fp := fp } = { s with fp := fp, sli := (onByte b s).sli } := by
  simp only [onByte]
  split_ifs
  · simp only [terminatorPath]
    cases s.sli.activeIndex <;> rfl
  · rfl
  · simp only [overlongPath]
    cases s.sli.activeIndex <;> rfl

theorem onByte_eq (b : Byte) (s : State) : onByte b s = { s with sli := (onByte b s).sli } :=
  onByte_replaceFp b s s.fp

/-- A SerialLineIntake command completes alike whatever the pool holds, and hands the pool through. -/
theorem exec_replaceFp {i : Instr} {s t : State} (hi : i.isSli = true) (h : exec i s = .next t) (fp : Fp) :
    exec i { s with fp := fp } = .next { t with fp := fp } := by
  cases i with
  | sliInit =>
    obtain ⟨hp, rfl⟩ := execSliInit_next.mp h
    exact execSliInit_next.mpr ⟨hp, rfl⟩
  | sliByte b =>
    obtain ⟨hp, rfl⟩ := execSliByte_next.mp h
    exact execSliByte_next.mpr ⟨hp, by rw [onByte_replaceFp b s fp, onByte_eq b s]; rfl⟩
  | sliHas =>
    obtain ⟨hp, rfl⟩ := execSliHas_next.mp h
    exact execSliHas_next.mpr ⟨hp, rfl⟩
  | sliTake =>
    obtain ⟨hp, rfl⟩ := execSliTake_next.mp h
    exact execSliTake_next.mpr ⟨hp, rfl⟩
  | sliRead k off =>
    obtain ⟨hp, buf, hk, ho, rfl⟩ := execSliRead_next.mp h
    exact execSliRead_next.mpr ⟨hp, buf, hk, ho, rfl⟩
  | sliReset =>
    obtain ⟨hp, rfl⟩ := execSliReset_next.mp h
    exact execSliReset_next.mpr ⟨hp, rfl⟩
  | _ => cases hi

/-! #### FramePool does not see SerialLineIntake -/

/-- A FramePool command completes alike whatever the line unit holds, and hands the line unit through. -/
theorem exec_replaceSli {i : Instr} {s t : State} (hi : i.isSli = false) (h : exec i s = .next t) (sli : Sli) :
    exec i { s with sli := sli } = .next { t with sli := sli } := by
  cases i with
  | fpInit =>
    obtain ⟨hp, rfl⟩ := execFpInit_next.mp h
    exact execFpInit_next.mpr ⟨hp, rfl⟩
  | fpReserve =>
    obtain ⟨hp, rfl⟩ := execFpReserve_next.mp h
    exact execFpReserve_next.mpr ⟨hp, by dsimp only; split_ifs <;> rfl⟩
  | fpFillb v off =>
    obtain ⟨hp, hop, hfree, rfl⟩ := execFpFillb_next.mp h
    exact execFpFillb_next.mpr ⟨hp, hop, hfree, rfl⟩
  | fpSetlen len =>
    obtain ⟨hp, hop, hfree, rfl⟩ := execFpSetlen_next.mp h
    exact execFpSetlen_next.mpr ⟨hp, hop, hfree, rfl⟩
  | fpCommit f =>
    obtain ⟨hp, hhead, hfree, rfl⟩ := execFpCommit_next.mp h
    exact execFpCommit_next.mpr ⟨hp, hhead, hfree, by cases f <;> rfl⟩
  | fpHasdata =>
    obtain ⟨hp, rfl⟩ := execFpHasdata_next.mp h
    exact execFpHasdata_next.mpr ⟨hp, rfl⟩
  | fpPeek =>
    obtain ⟨hp, hused, rfl⟩ := execFpPeek_next.mp h
    exact execFpPeek_next.mpr ⟨hp, hused, rfl⟩
  | fpRdlen slot =>
    obtain ⟨hp, hslot, rfl⟩ := execFpRdlen_next.mp h
    exact execFpRdlen_next.mpr ⟨hp, hslot, rfl⟩
  | fpReadb slot off =>
    obtain ⟨hp, hop, rfl⟩ := execFpReadb_next.mp h
    exact execFpReadb_next.mpr ⟨hp, hop, rfl⟩
  | fpRelease =>
    obtain ⟨hp, hused, rfl⟩ := execFpRelease_next.mp h
    exact execFpRelease_next.mpr ⟨hp, hused, rfl⟩
  | fpOvf =>
    obtain ⟨hp, rfl⟩ := execFpOvf_next.mp h
    exact execFpOvf_next.mpr ⟨hp, rfl⟩
  | fpReset =>
    obtain ⟨hp, rfl⟩ := execFpReset_next.mp h
    exact execFpReset_next.mpr ⟨hp, rfl⟩
  | _ => cases hi

/-- The frame is the case of `exec_replaceFp` that puts back the pool that stood there. -/
theorem exec_sli_keeps_fp {i : Instr} {s t : State} (hi : i.isSli = true) (h : exec i s = .next t) :
    t.fp = s.fp := by
  have hput : exec i s = .next { t with fp := s.fp } := exec_replaceFp hi h s.fp
  rw [h, Host.Outcome.next.injEq] at hput
  rw [hput]

/-- The frame is the case of `exec_replaceSli` that puts back the line unit that stood there. -/
theorem exec_fp_keeps_sli {i : Instr} {s t : State} (hi : i.isSli = false) (h : exec i s = .next t) :
    t.sli = s.sli := by
  have hput : exec i s = .next { t with sli := s.sli } := exec_replaceSli hi h s.sli
  rw [h, Host.Outcome.next.injEq] at hput
  rw [hput]

/-- Settles O50: a command commutes with replacing the other unit, which also gives the frame. -/
theorem unitsAreIndependent : Obligations.UnitsAreIndependent := fun _ _ _ h =>
  ⟨fun hi => ⟨exec_sli_keeps_fp hi h, exec_replaceFp hi h⟩,
    fun hi => ⟨exec_fp_keeps_sli hi h, exec_replaceSli hi h⟩⟩

/-! #### What stands around the units -/

/-- A command that completes writes the two units, the events and one answer on its port: the parameters, the port, the inbox and
the open invocation stay (30_encoding.md R73). -/
theorem exec_next_eq {i : Instr} {s t : State} (h : exec i s = .next t) :
    ∃ r, t = { s with sli := t.sli, fp := t.fp, events := t.events, answers := s.answers ++ [(s.port, r)] } := by
  cases i with
  | sliInit => obtain ⟨-, rfl⟩ := execSliInit_next.mp h; exact ⟨_, rfl⟩
  | sliByte b =>
    obtain ⟨-, rfl⟩ := execSliByte_next.mp h
    rw [onByte_eq]
    exact ⟨_, rfl⟩
  | sliHas => obtain ⟨-, rfl⟩ := execSliHas_next.mp h; exact ⟨_, rfl⟩
  | sliTake => obtain ⟨-, rfl⟩ := execSliTake_next.mp h; exact ⟨_, rfl⟩
  | sliRead k off => obtain ⟨-, -, -, -, rfl⟩ := execSliRead_next.mp h; exact ⟨_, rfl⟩
  | sliReset => obtain ⟨-, rfl⟩ := execSliReset_next.mp h; exact ⟨_, rfl⟩
  | fpInit => obtain ⟨-, rfl⟩ := execFpInit_next.mp h; exact ⟨_, rfl⟩
  | fpReserve =>
    obtain ⟨-, rfl⟩ := execFpReserve_next.mp h
    split_ifs
    · exact ⟨noneWord, rfl⟩
    · exact ⟨_, rfl⟩
  | fpFillb v off => obtain ⟨-, -, -, rfl⟩ := execFpFillb_next.mp h; exact ⟨_, rfl⟩
  | fpSetlen len => obtain ⟨-, -, -, rfl⟩ := execFpSetlen_next.mp h; exact ⟨_, rfl⟩
  | fpCommit f =>
    obtain ⟨-, -, -, rfl⟩ := execFpCommit_next.mp h
    cases f with
    | false => exact ⟨_, rfl⟩
    | true => exact ⟨_, rfl⟩
  | fpHasdata => obtain ⟨-, rfl⟩ := execFpHasdata_next.mp h; exact ⟨_, rfl⟩
  | fpPeek => obtain ⟨-, -, rfl⟩ := execFpPeek_next.mp h; exact ⟨_, rfl⟩
  | fpRdlen slot => obtain ⟨-, -, rfl⟩ := execFpRdlen_next.mp h; exact ⟨_, rfl⟩
  | fpReadb slot off => obtain ⟨-, -, rfl⟩ := execFpReadb_next.mp h; exact ⟨_, rfl⟩
  | fpRelease => obtain ⟨-, -, rfl⟩ := execFpRelease_next.mp h; exact ⟨_, rfl⟩
  | fpOvf => obtain ⟨-, rfl⟩ := execFpOvf_next.mp h; exact ⟨_, rfl⟩
  | fpReset => obtain ⟨-, rfl⟩ := execFpReset_next.mp h; exact ⟨_, rfl⟩

theorem exec_keeps_cfg {i : Instr} {s t : State} (h : exec i s = .next t) : t.cfg = s.cfg := by
  obtain ⟨r, ht⟩ := exec_next_eq h
  rw [ht]

/-- Settles O53, by what a step that goes on can be. -/
theorem configurationIsFixed : Obligations.ConfigurationIsFixed := by
  intro s t h
  obtain ⟨-, ⟨-, rfl⟩ | ⟨rest, -, rfl⟩ | ⟨p, w, rest, i, u, -, -, -, hexec, rfl⟩⟩ := step_next_cases h
  · rfl
  · rfl
  · calc (u.trackRadio i).cfg = u.cfg := trackRadio_cfg u i
      _ = State.cfg { s with port := p, inbox := rest } := exec_keeps_cfg hexec
      _ = s.cfg := rfl

end Sys2Proof.Machine

/-! ### State (10_state.md R20 to R35, R41): what a completing command can do to the elements of the two units -/

namespace Sys2Proof.Machine

/-- The commands that answer from the state and write none of it (20_memory.md R56). -/
def onlyReads : Instr → Bool
  | .sliHas | .sliRead _ _ | .fpHasdata | .fpPeek | .fpRdlen _ | .fpReadb _ _ | .fpOvf => true
  | _ => false

/-- `Effect s i u`: a command `i` that completes in state `s` makes it `u`, but for its answer (`exec_effect`). One case for each way
a command can write, with the guards it passed; the other unit, and what stands around the units, is `s`'s by its definition. -/
inductive Effect (s : State) : Instr → State → Prop where
  | readOnly {i : Instr} (hi : onlyReads i = true) : Effect s i s
  | lineInitialised : Effect s .sliInit
      (((((s.setActive .b0).setOffset 0).setReady false).setCompletedLength .b0 0).setCompletedLength .b1 0)
  | byteReceived (b : Byte) : Effect s (.sliByte b) { s with sli := (onByte b s).sli }
  | viewTaken : Effect s .sliTake (s.setReady false)
  | lineReset : Effect s .sliReset (((s.setReady false).emit .flushRx).emit .enableRxIrq)
  | poolEmptied {i : Instr} (hi : i = .fpInit ∨ i = .fpReset) : Effect s i s.emptyPool
  | slotReserved (hfree : s.fp.freeCount ≠ 0) : Effect s .fpReserve s
  | noSlotReserved (hfull : s.fp.freeCount = 0) : Effect s .fpReserve (s.setOverflow true)
  | payloadFilled (v : Byte) (off : Half) (hoff : off.toNat < s.cfg.payloadBytes) (hhead : s.fp.head < s.cfg.slots)
      (hfree : s.fp.freeCount ≠ 0) : Effect s (.fpFillb v off) (s.payloadWrite s.fp.head off.toNat v)
  | lengthSet (len : Half) (hlen : len.toNat < 2 ^ s.cfg.lenBits) (hhead : s.fp.head < s.cfg.slots)
      (hfree : s.fp.freeCount ≠ 0) : Effect s (.fpSetlen len) (s.lengthWrite s.fp.head len)
  | frameRejected (hhead : s.fp.head < s.cfg.slots) (hfree : s.fp.freeCount ≠ 0) :
      Effect s (.fpCommit false) (s.crcWrite s.fp.head false)
  | frameCommitted (hhead : s.fp.head < s.cfg.slots) (hfree : s.fp.freeCount ≠ 0) :
      Effect s (.fpCommit true) (advanceHead (s.crcWrite s.fp.head true))
  | frameReleased (hused : s.fp.usedCount ≠ 0) : Effect s .fpRelease (advanceTail s)

/-- A command that completes has its effect and gives its answer. -/
theorem exec_effect {i : Instr} {s t : State} (h : exec i s = .next t) : ∃ u r, Effect s i u ∧ t = u.answer r := by
  cases i with
  | sliInit => obtain ⟨-, rfl⟩ := execSliInit_next.mp h; exact ⟨_, _, .lineInitialised, rfl⟩
  | sliByte b =>
    obtain ⟨-, rfl⟩ := execSliByte_next.mp h
    exact ⟨_, _, .byteReceived b, by rw [← onByte_eq]⟩
  | sliHas => obtain ⟨-, rfl⟩ := execSliHas_next.mp h; exact ⟨_, _, .readOnly rfl, rfl⟩
  | sliTake => obtain ⟨-, rfl⟩ := execSliTake_next.mp h; exact ⟨_, _, .viewTaken, rfl⟩
  | sliRead k off => obtain ⟨-, -, -, -, rfl⟩ := execSliRead_next.mp h; exact ⟨_, _, .readOnly rfl, rfl⟩
  | sliReset => obtain ⟨-, rfl⟩ := execSliReset_next.mp h; exact ⟨_, _, .lineReset, rfl⟩
  | fpInit => obtain ⟨-, rfl⟩ := execFpInit_next.mp h; exact ⟨_, _, .poolEmptied (.inl rfl), rfl⟩
  | fpReserve =>
    obtain ⟨-, rfl⟩ := execFpReserve_next.mp h
    split_ifs with hfree
    · exact ⟨_, _, .noSlotReserved hfree, rfl⟩
    · exact ⟨_, _, .slotReserved hfree, rfl⟩
  | fpFillb v off =>
    obtain ⟨-, ⟨hoff, hhead⟩, hfree, rfl⟩ := execFpFillb_next.mp h
    exact ⟨_, _, .payloadFilled v off hoff hhead hfree, rfl⟩
  | fpSetlen len =>
    obtain ⟨-, ⟨hlen, hhead⟩, hfree, rfl⟩ := execFpSetlen_next.mp h
    exact ⟨_, _, .lengthSet len hlen hhead hfree, rfl⟩
  | fpCommit f =>
    obtain ⟨-, hhead, hfree, rfl⟩ := execFpCommit_next.mp h
    cases f with
    | false => exact ⟨_, _, .frameRejected hhead hfree, rfl⟩
    | true => exact ⟨_, _, .frameCommitted hhead hfree, rfl⟩
  | fpHasdata => obtain ⟨-, rfl⟩ := execFpHasdata_next.mp h; exact ⟨_, _, .readOnly rfl, rfl⟩
  | fpPeek => obtain ⟨-, -, rfl⟩ := execFpPeek_next.mp h; exact ⟨_, _, .readOnly rfl, rfl⟩
  | fpRdlen slot => obtain ⟨-, -, rfl⟩ := execFpRdlen_next.mp h; exact ⟨_, _, .readOnly rfl, rfl⟩
  | fpReadb slot off => obtain ⟨-, -, rfl⟩ := execFpReadb_next.mp h; exact ⟨_, _, .readOnly rfl, rfl⟩
  | fpRelease =>
    obtain ⟨-, hused, rfl⟩ := execFpRelease_next.mp h
    exact ⟨_, _, .frameReleased hused, rfl⟩
  | fpOvf => obtain ⟨-, rfl⟩ := execFpOvf_next.mp h; exact ⟨_, _, .readOnly rfl, rfl⟩
  | fpReset => obtain ⟨-, rfl⟩ := execFpReset_next.mp h; exact ⟨_, _, .poolEmptied (.inr rfl), rfl⟩

/-- A step keeps a property of the parameters and the two units that every effect of a command keeps. -/
theorem step_keeps {P : State → Prop} (hunits : ∀ {s t : State}, t.cfg = s.cfg → t.sli = s.sli → t.fp = s.fp → P s → P t)
    (heffect : ∀ {i : Instr} {s u : State}, Effect s i u → P s → P u) {s t : State} (h : step s = .next t) (hs : P s) : P t := by
  obtain ⟨-, ⟨-, rfl⟩ | ⟨rest, -, rfl⟩ | ⟨p, w, rest, i, t', -, -, -, hexec, rfl⟩⟩ := step_next_cases h
  · exact hs
  · exact hunits (s := s) rfl rfl rfl hs
  · obtain ⟨u, r, heff, rfl⟩ := exec_effect hexec
    have harrived : P { s with port := p, inbox := rest } := hunits (s := s) rfl rfl rfl hs
    exact hunits (s := u) (by simp) (by simp) (by simp) (heffect heff harrived)

namespace Effect

variable {s u : State} {i : Instr}

theorem cfg_eq (h : Effect s i u) : u.cfg = s.cfg := by cases h <;> rfl

/-! #### The "set by" columns of 10_state.md R20 and R29: an element stays unless its own commands run -/

/-- Of SerialLineIntake, SLI.INIT and SLI.BYTE alone write more than the ready flag. -/
theorem sli_eq_but_ready (h : Effect s i u) (hinit : i ≠ .sliInit) (hbyte : ∀ b, i ≠ .sliByte b) :
    u.sli = { s.sli with messageReady := u.sli.messageReady } := by
  cases h with
  | lineInitialised => exact absurd rfl hinit
  | byteReceived b => exact absurd rfl (hbyte b)
  | _ => rfl

theorem lb_eq (h : Effect s i u) (hbyte : ∀ b, i ≠ .sliByte b) : u.sli.lb = s.sli.lb := by
  cases h with
  | byteReceived b => exact absurd rfl (hbyte b)
  | _ => rfl

theorem messageReady_eq (h : Effect s i u) (hinit : i ≠ .sliInit) (hbyte : ∀ b, i ≠ .sliByte b) (htake : i ≠ .sliTake)
    (hreset : i ≠ .sliReset) : u.sli.messageReady = s.sli.messageReady := by
  cases h with
  | lineInitialised => exact absurd rfl hinit
  | byteReceived b => exact absurd rfl (hbyte b)
  | viewTaken => exact absurd rfl htake
  | lineReset => exact absurd rfl hreset
  | _ => rfl

theorem events_eq (h : Effect s i u) (hreset : i ≠ .sliReset) : u.events = s.events := by
  cases h with
  | lineReset => exact absurd rfl hreset
  | _ => rfl

theorem head_eq (h : Effect s i u) (hempty : ¬(i = .fpInit ∨ i = .fpReset)) (hcommit : i ≠ .fpCommit true) :
    u.fp.head = s.fp.head := by
  cases h with
  | poolEmptied hi => exact absurd hi hempty
  | frameCommitted => exact absurd rfl hcommit
  | _ => rfl

theorem tail_eq (h : Effect s i u) (hempty : ¬(i = .fpInit ∨ i = .fpReset)) (hrelease : i ≠ .fpRelease) :
    u.fp.tail = s.fp.tail := by
  cases h with
  | poolEmptied hi => exact absurd hi hempty
  | frameReleased => exact absurd rfl hrelease
  | _ => rfl

theorem counts_eq (h : Effect s i u) (hempty : ¬(i = .fpInit ∨ i = .fpReset)) (hcommit : i ≠ .fpCommit true)
    (hrelease : i ≠ .fpRelease) : u.fp.freeCount = s.fp.freeCount ∧ u.fp.usedCount = s.fp.usedCount := by
  cases h with
  | poolEmptied hi => exact absurd hi hempty
  | frameCommitted => exact absurd rfl hcommit
  | frameReleased => exact absurd rfl hrelease
  | _ => exact ⟨rfl, rfl⟩

theorem payload_eq (h : Effect s i u) (hfill : ∀ v off, i ≠ .fpFillb v off) : u.fp.payload = s.fp.payload := by
  cases h with
  | payloadFilled v off => exact absurd rfl (hfill v off)
  | _ => rfl

theorem length_eq (h : Effect s i u) (hset : ∀ len, i ≠ .fpSetlen len) : u.fp.length = s.fp.length := by
  cases h with
  | lengthSet len => exact absurd rfl (hset len)
  | _ => rfl

theorem crcOk_eq (h : Effect s i u) (hcommit : ∀ f, i ≠ .fpCommit f) : u.fp.crcOk = s.fp.crcOk := by
  cases h with
  | frameRejected => exact absurd rfl (hcommit false)
  | frameCommitted => exact absurd rfl (hcommit true)
  | _ => rfl

/-- The sticky flag stays, is set by a reserve on a full pool, or is cleared with the pool (10_state.md R33). -/
theorem overflow_cases (h : Effect s i u) : u.fp.overflow = s.fp.overflow ∨
    (u.fp.overflow = true ∧ i = .fpReserve ∧ s.fp.freeCount = 0) ∨
    (u.fp.overflow = false ∧ (i = .fpInit ∨ i = .fpReset)) := by
  cases h with
  | noSlotReserved hfull => exact .inr (.inl ⟨rfl, rfl, hfull⟩)
  | poolEmptied hi => exact .inr (.inr ⟨rfl, hi⟩)
  | _ => exact .inl rfl

theorem overflow_eq (h : Effect s i u) (hempty : ¬(i = .fpInit ∨ i = .fpReset)) (hreserve : i ≠ .fpReserve) :
    u.fp.overflow = s.fp.overflow := by
  obtain hkept | ⟨-, hi, -⟩ | ⟨-, hi⟩ := h.overflow_cases
  · exact hkept
  · exact absurd hi hreserve
  · exact absurd hi hempty

end Effect

/-- Settles O48, element by element. -/
theorem onlyNamedCommandsWrite : Obligations.OnlyNamedCommandsWrite := by
  intro i s t h
  obtain ⟨u, r, heff, rfl⟩ := exec_effect h
  have hempty (hinit : i ≠ .fpInit) (hreset : i ≠ .fpReset) : ¬(i = .fpInit ∨ i = .fpReset) := not_or.mpr ⟨hinit, hreset⟩
  refine ⟨fun hinit hbyte => ?_, heff.lb_eq, heff.messageReady_eq, fun hi hr => heff.head_eq (hempty hi hr),
    fun hi hr => heff.tail_eq (hempty hi hr), fun hi hr => heff.counts_eq (hempty hi hr),
    fun hi hr => heff.overflow_eq (hempty hi hr), heff.payload_eq, heff.length_eq, heff.crcOk_eq, heff.events_eq⟩
  rw [answer_sli, heff.sli_eq_but_ready hinit hbyte]
  exact ⟨rfl, rfl, rfl, rfl⟩

/-- Settles O49: the flag changes in the step of a command only, and there as `Effect.overflow_cases` says. -/
theorem overflowIsSticky : Obligations.OverflowIsSticky := by
  intro s t h hne
  obtain ⟨-, ⟨-, rfl⟩ | ⟨rest, -, rfl⟩ | ⟨p, w, rest, i, t', hinbox, -, hdecode, hexec, rfl⟩⟩ := step_next_cases h
  · exact absurd rfl hne
  · exact absurd rfl hne
  · obtain ⟨u, r, heff, rfl⟩ := exec_effect hexec
    rw [trackRadio_fp, answer_fp] at hne ⊢
    refine ⟨p, w, rest, hinbox, ?_⟩
    obtain hkept | ⟨hset, rfl, hfull⟩ | ⟨hcleared, rfl | rfl⟩ := heff.overflow_cases
    · exact absurd hkept hne
    · exact .inl ⟨hset, hdecode, hfull⟩
    · exact .inr ⟨hcleared, .inl hdecode⟩
    · exact .inr ⟨hcleared, .inr hdecode⟩

/-! #### Ranges (10_state.md R20, R22, R29) -/

theorem nextSlot_lt {cfg : Config} (hc : cfg.WellFormed) (j : Nat) : nextSlot cfg j < cfg.slots := by
  obtain ⟨-, -, hslots, -⟩ := hc
  exact Nat.mod_lt _ hslots

theorem setCompletedLength_completedLength (s : State) (k j : Buf) (n : Nat) :
    (s.setCompletedLength k n).completedLength j = if j = k then n else s.completedLength j := by
  cases k <;> cases j <;> rfl

/-- The guard of SLI.BYTE leaves room for terminator and trailer: `write_offset` never passes C - 2 (10_state.md R22). -/
theorem onByte_offset_le {s : State} (b : Byte) (hc : 3 ≤ s.cfg.capacity) :
    (onByte b s).sli.writeOffset + 2 ≤ s.cfg.capacity := by
  by_cases hroom : s.sli.writeOffset + 2 < s.cfg.capacity
  · by_cases hb : b ∈ s.cfg.terminators
    · rw [onByte_terminator hroom hb]
      simp only [terminatorPath, setReady_sli_writeOffset, setOffset_sli_writeOffset]
      omega
    · rw [onByte_ordinary hroom hb]
      simp only [ordinaryPath, setOffset_sli_writeOffset]
      omega
  · rw [onByte_overlong (by omega)]
    simp only [overlongPath, setReady_sli_writeOffset, setOffset_sli_writeOffset]
    omega

/-- SLI.BYTE records at most C: the completed length `w + 3`, which its guard bounds, or the overlong marker. -/
theorem onByte_completedLength_le {s : State} (b : Byte) (hc : 3 ≤ s.cfg.capacity)
    (hlen : ∀ k, s.completedLength k ≤ s.cfg.capacity) (k : Buf) : (onByte b s).completedLength k ≤ s.cfg.capacity := by
  have hk := hlen k
  by_cases hroom : s.sli.writeOffset + 2 < s.cfg.capacity
  · by_cases hb : b ∈ s.cfg.terminators
    · rw [onByte_terminator hroom hb]
      simp only [terminatorPath, setReady_completedLength, setOffset_completedLength, setActive_completedLength,
        setCompletedLength_completedLength, lbWrite_completedLength, Config.trailer]
      split_ifs <;> omega
    · rw [onByte_ordinary hroom hb]
      simpa only [ordinaryPath, setOffset_completedLength, lbWrite_completedLength] using hk
  · rw [onByte_overlong (by omega)]
    simp only [overlongPath, setReady_completedLength, setOffset_completedLength, setCompletedLength_completedLength,
      Config.overlongMark]
    split_ifs <;> omega

theorem Ranged.completedLength_le {s : State} (hs : Ranged s) : ∀ k, s.completedLength k ≤ s.cfg.capacity
  | .b0 => hs.length0
  | .b1 => hs.length1

theorem Ranged.of_units_eq {s t : State} (hcfg : t.cfg = s.cfg) (hsli : t.sli = s.sli) (hfp : t.fp = s.fp)
    (hs : Ranged s) : Ranged t := by
  obtain ⟨hconfig, hoffset, hlength0, hlength1, hhead, htail⟩ := hs
  constructor <;> simpa only [hcfg, hsli, hfp]

/-- Only a command that writes an element can take it out of its range, and none does. -/
theorem Effect.ranged {s u : State} {i : Instr} (h : Effect s i u) (hs : Ranged s) : Ranged u := by
  obtain ⟨hcap, -, hslots, -⟩ := hs.config
  cases h with
  | lineInitialised => exact { hs with offset := Nat.le_of_succ_le hcap, length0 := Nat.zero_le _, length1 := Nat.zero_le _ }
  | byteReceived b =>
    have hlen := onByte_completedLength_le b hcap hs.completedLength_le
    exact { hs with offset := onByte_offset_le b hcap, length0 := hlen .b0, length1 := hlen .b1 }
  | poolEmptied => exact { hs with head := hslots, tail := hslots }
  | frameCommitted => exact { hs with head := nextSlot_lt hs.config _ }
  | frameReleased => exact { hs with tail := nextSlot_lt hs.config _ }
  | _ => exact { hs with }

/-- The two counters of a pool add up to its slots (10_state.md R32). -/
def CountsConserved (s : State) : Prop := s.fp.freeCount + s.fp.usedCount = s.cfg.slots

/-- FP.COMMIT and FP.RELEASE move the counters together, each guarded by the counter it lowers. -/
theorem Effect.countsConserved {s u : State} {i : Instr} (h : Effect s i u) (hs : CountsConserved s) :
    CountsConserved u := by
  unfold CountsConserved at hs ⊢
  cases h with
  | poolEmptied => exact Nat.add_zero _
  | frameCommitted hhead hfree =>
    simp only [advanceHead_fp_freeCount, advanceHead_fp_usedCount, advanceHead_cfg, crcWrite_fp_freeCount,
      crcWrite_fp_usedCount, crcWrite_cfg]
    omega
  | frameReleased hused =>
    simp only [advanceTail_fp_freeCount, advanceTail_fp_usedCount, advanceTail_cfg]
    omega
  | _ => exact hs

theorem step_keeps_countsConserved {s t : State} (h : step s = .next t) (hs : CountsConserved s) : CountsConserved t :=
  step_keeps (fun hcfg _ hfp hs => by rwa [CountsConserved, hcfg, hfp]) Effect.countsConserved h hs

/-- Settles O56: the ranges are kept by every effect; the counters are bounded because a pool conserves their sum. -/
theorem rangesKept : Obligations.RangesKept := by
  refine ⟨fun s t hs h => step_keeps Ranged.of_units_eq Effect.ranged h hs, fun s t hs h => ?_⟩
  have hsum : t.fp.freeCount + t.fp.usedCount = t.cfg.slots := step_keeps_countsConserved h hs.conserved
  omega

/-! #### What establishes the invariants: power-on and the initialising commands -/

/-- An empty pool meets the pool's invariants, its window being empty (10_state.md R32, R34, 41_frame_pool.md R114, R123). -/
theorem emptyPool_poolOk {s : State} (hslots : 1 ≤ s.cfg.slots) : PoolOk s.emptyPool where
  slots := hslots
  conserved := Nat.add_zero _
  tail := hslots
  head := (Nat.zero_mod _).symm

theorem windowCrc_of_unused {s : State} (h : s.fp.usedCount = 0) : WindowCrc s := by
  simp [WindowCrc, State.window, h]

/-- An empty line with no length recorded meets the framing invariant: it has no bytes and no message to speak of (10_state.md R22,
R23, 40_serial_line_intake.md R103). -/
theorem framed_of_empty {s : State} (hc : 3 ≤ s.cfg.capacity) (hoffset : s.sli.writeOffset = 0)
    (hlen : ∀ k, s.completedLength k = 0) : Framed s where
  ranges := { offset := by omega, lengths := fun k => .inl (hlen k) }
  partialText off hoff := by omega
  completed h := by rw [hlen] at h; omega

/-- Settles O27, by the two starting points `framed_of_empty` and `emptyPool_poolOk`. -/
theorem initEstablishesInvariants : Obligations.InitEstablishesInvariants := by
  intro s hp hc
  obtain ⟨hcap, -, hslots, -⟩ := hc
  have hpool (w : Word) : PoolOk (s.emptyPool.answer w) ∧ WindowCrc (s.emptyPool.answer w) :=
    ⟨{ emptyPool_poolOk hslots with }, windowCrc_of_unused rfl⟩
  refine ⟨⟨_, execSliInit_next.mpr ⟨hp, rfl⟩, framed_of_empty hcap rfl fun k => ?_⟩,
    ⟨_, execFpInit_next.mpr ⟨hp, rfl⟩, hpool _⟩, ⟨_, execFpReset_next.mpr ⟨hp, rfl⟩, hpool _⟩⟩
  cases k <;> rfl

/-- The model cuts every power-on value to the range of its element (log entry 1). -/
theorem powerOn_ranged {cfg : Config} (hc : cfg.WellFormed) : Ranged (State.powerOn cfg) := by
  have ⟨hcap, _, hslots, _⟩ := hc
  have hoffset : Config.powerOnOffset % (cfg.capacity - 1) < cfg.capacity - 1 := Nat.mod_lt _ (by omega)
  exact
    { config := hc
      offset := show Config.powerOnOffset % (cfg.capacity - 1) + 2 ≤ cfg.capacity by omega
      length0 := Nat.le_of_lt_succ (Nat.mod_lt _ (Nat.succ_pos _))
      length1 := Nat.le_of_lt_succ (Nat.mod_lt _ (Nat.succ_pos _))
      head := Nat.mod_lt _ hslots
      tail := Nat.mod_lt _ hslots }

/-- Memory that lists nothing is in form and inside its spaces (log entry 2). -/
theorem powerOn_memoryOk (cfg : Config) : MemoryOk (State.powerOn cfg) := by
  constructor <;> simp [State.powerOn, Memory.wf]

theorem powerOn_fresh {cfg : Config} (hc : cfg.WellFormed) : Fresh (State.powerOn cfg) where
  ranged := powerOn_ranged hc
  memory := powerOn_memoryOk cfg
  free := Nat.le_of_lt_succ (Nat.mod_lt _ (Nat.succ_pos _))
  used := Nat.le_of_lt_succ (Nat.mod_lt _ (Nat.succ_pos _))
  lb := rfl
  payload := rfl
  length := rfl
  crcOk := rfl

/-- Settles O55; `State.reset` is power-on in a configuration that is in range. -/
theorem powerOnRanges : Obligations.PowerOnRanges :=
  ⟨fun _ => powerOn_fresh, powerOn_fresh (by decide)⟩

end Sys2Proof.Machine

/-! ### Memory (20_memory.md R50 to R60): what the writes of a command keep -/

namespace Sys2Proof.Machine

/-! #### Canonical form and spaces (R50 to R52) -/

/-- What holds of every listed cell and of the written one holds of every cell after the write. -/
theorem Memory.forall_mem_write {α : Type} {P : Nat × α → Prop} {m : List (Nat × α)} {a : Nat} {v : α}
    (hm : ∀ c ∈ m, P c) (hnew : P (a, v)) : ∀ c ∈ Memory.write m a v, P c := by
  intro c hc
  obtain rfl | hold := Memory.mem_write hc
  · exact hnew
  · exact hm c hold

namespace MemoryOk

variable {s t : State}

/-- The form of memory speaks of the parameters, LB and the pool only. -/
theorem of_memory_eq (hcfg : t.cfg = s.cfg) (hlb : t.sli.lb = s.sli.lb) (hfp : t.fp = s.fp) (hs : MemoryOk s) :
    MemoryOk t := by
  obtain ⟨hlbForm, hpayloadForm, hlengthForm, hcrcForm, hlbIn, hpayloadIn, hlengthIn, hcrcIn⟩ := hs
  constructor <;> simpa only [hcfg, hlb, hfp]

theorem lbWrite (hs : MemoryOk s) (k : Buf) {off : Nat} (v : Byte) (hoff : off < s.cfg.capacity) :
    MemoryOk (s.lbWrite k off v) :=
  { hs with
    lbForm := Memory.wf_write _ v hs.lbForm
    lbInside := Memory.forall_mem_write hs.lbInside (lbAddr_lt s.cfg k hoff) }

theorem payloadWrite (hs : MemoryOk s) {slot off : Nat} (v : Byte) (hslot : slot < s.cfg.slots)
    (hoff : off < s.cfg.payloadBytes) : MemoryOk (s.payloadWrite slot off v) :=
  { hs with
    payloadForm := Memory.wf_write _ v hs.payloadForm
    payloadInside := Memory.forall_mem_write hs.payloadInside (payloadAddr_lt s.cfg hslot hoff) }

theorem lengthWrite (hs : MemoryOk s) {slot : Nat} {len : Half} (hslot : slot < s.cfg.slots)
    (hlen : len.toNat < 2 ^ s.cfg.lenBits) : MemoryOk (s.lengthWrite slot len) :=
  { hs with
    lengthForm := Memory.wf_write _ len hs.lengthForm
    lengthInside := Memory.forall_mem_write hs.lengthInside ⟨hslot, hlen⟩ }

theorem crcWrite (hs : MemoryOk s) {slot : Nat} (f : Bool) (hslot : slot < s.cfg.slots) :
    MemoryOk (s.crcWrite slot f) :=
  { hs with
    crcForm := Memory.wf_write _ f hs.crcForm
    crcInside := Memory.forall_mem_write hs.crcInside hslot }

end MemoryOk

/-- The guard of SLI.BYTE keeps each of its stores, the byte at `w` and the trailer at `w + 1` and `w + 2`, below C
(40_serial_line_intake.md R91). -/
theorem onByte_memoryOk {s : State} (hs : MemoryOk s) (b : Byte) : MemoryOk (onByte b s) := by
  by_cases hroom : s.sli.writeOffset + 2 < s.cfg.capacity
  · have hbyte := hs.lbWrite s.sli.activeIndex b (show s.sli.writeOffset < s.cfg.capacity by omega)
    by_cases hb : b ∈ s.cfg.terminators
    · have htrailer1 := hbyte.lbWrite s.sli.activeIndex Config.zero (show s.sli.writeOffset + 1 < s.cfg.capacity by omega)
      have htrailer2 := htrailer1.lbWrite s.sli.activeIndex Config.zero hroom
      rw [onByte_terminator hroom hb]
      exact htrailer2.of_memory_eq (by simp [terminatorPath]) (by simp [terminatorPath]) (by simp [terminatorPath])
    · rw [onByte_ordinary hroom hb]
      exact { hbyte with }
  · rw [onByte_overlong (by omega)]
    exact hs.of_memory_eq (by simp [overlongPath]) (by simp [overlongPath]) (by simp [overlongPath])

/-- A command that writes memory has passed the guards that put the location inside its space. -/
theorem Effect.memoryOk {s u : State} {i : Instr} (h : Effect s i u) (hs : MemoryOk s) : MemoryOk u := by
  cases h with
  | byteReceived b => exact onByte_eq b s ▸ onByte_memoryOk hs b
  | payloadFilled v off hoff hhead => exact hs.payloadWrite v hhead hoff
  | lengthSet len hlen hhead => exact hs.lengthWrite hhead hlen
  | frameRejected hhead => exact hs.crcWrite false hhead
  | frameCommitted hhead => exact { hs.crcWrite true hhead with }
  | _ => exact { hs with }

/-- Settles O57: every effect of a command keeps the form, and nothing else of a step touches memory. -/
theorem memoryKept : Obligations.MemoryKept := fun _ _ hs h =>
  step_keeps (fun hcfg hsli => MemoryOk.of_memory_eq hcfg (congrArg Sli.lb hsli)) Effect.memoryOk h hs

/-! #### The view of a message (R59, 40_serial_line_intake.md R103) -/

theorem answer_lastAnswer (s : State) (w : Word) : (s.answer w).lastAnswer = w := by
  simp [State.lastAnswer]

theorem Buf.other_index (k : Buf) : k.other.index = 1 - k.index := by cases k <;> rfl

theorem terminatorPath_activeIndex (b : Byte) (s : State) :
    (terminatorPath b s).sli.activeIndex = s.sli.activeIndex.other := rfl

theorem terminatorPath_completedLength_active (b : Byte) (s : State) :
    (terminatorPath b s).completedLength s.sli.activeIndex = s.sli.writeOffset + 3 := by
  simp [terminatorPath, Config.trailer]

theorem terminatorPath_cfg (b : Byte) (s : State) : (terminatorPath b s).cfg = s.cfg := by simp [terminatorPath]

/-- The terminator path completes the partial text of the active buffer to a message: the byte is its terminator, and the two zero
bytes its trailer. -/
theorem terminatorPath_messageAt {b : Byte} {s : State} (hs : Framed s) (hroom : s.sli.writeOffset + 2 < s.cfg.capacity)
    (hb : b ∈ s.cfg.terminators) : MessageAt (terminatorPath b s) s.sli.activeIndex (s.sli.writeOffset + 3) where
  text off hoff := by
    have htext : off < s.sli.writeOffset := by omega
    rw [terminatorPath_lbWritten b s hroom _ (by omega), if_neg (by omega), if_neg (by omega), terminatorPath_cfg]
    exact hs.partialText off htext
  terminator := ⟨b, by rw [terminatorPath_lbWritten b s hroom _ (by omega)]; simp, by rwa [terminatorPath_cfg]⟩
  trailer1 := by rw [terminatorPath_lbWritten b s hroom _ (by omega)]; simp
  trailer2 := by rw [terminatorPath_lbWritten b s hroom _ (by omega)]; simp

/-- SLI.BYTE stores in the active buffer only. -/
theorem onByte_lbWritten_other (b : Byte) (s : State) {off : Nat} (hoff : off < s.cfg.capacity) :
    (onByte b s).lbWritten s.sli.activeIndex.other off = s.lbWritten s.sli.activeIndex.other off := by
  have hother := Buf.other_ne s.sli.activeIndex
  by_cases hroom : s.sli.writeOffset + 2 < s.cfg.capacity
  · by_cases hb : b ∈ s.cfg.terminators
    · rw [onByte_terminator hroom hb, terminatorPath_lbWritten b s hroom _ hoff]
      simp [hother]
    · rw [onByte_ordinary hroom hb, ordinaryPath_lbWritten b s hroom _ hoff]
      simp [hother]
  · rw [onByte_overlong (by omega)]
    simp [overlongPath]

/-- Of the three paths of SLI.BYTE the terminator path alone flips the buffers. -/
theorem onByte_activeIndex_cases (b : Byte) (s : State) : (onByte b s).sli.activeIndex = s.sli.activeIndex ∨
    (b ∈ s.cfg.terminators ∧ s.sli.writeOffset + 2 < s.cfg.capacity) := by
  by_cases hroom : s.sli.writeOffset + 2 < s.cfg.capacity
  · by_cases hb : b ∈ s.cfg.terminators
    · exact .inr ⟨hb, hroom⟩
    · rw [onByte_ordinary hroom hb]
      exact .inl rfl
  · rw [onByte_overlong (by omega)]
    exact .inl (by simp [overlongPath])

namespace Effect

variable {s u : State} {i : Instr}

/-- No command writes the buffer that is not active when it starts. -/
theorem lbWritten_other (h : Effect s i u) {off : Nat} (hoff : off < s.cfg.capacity) :
    u.lbWritten s.sli.activeIndex.other off = s.lbWritten s.sli.activeIndex.other off := by
  cases h with
  | byteReceived b => rw [← onByte_eq]; exact onByte_lbWritten_other b s hoff
  | _ => rfl

/-- What can change `active_index` (10_state.md R21, 70_reset_and_hazards.md R185). -/
theorem activeIndex_cases (h : Effect s i u) : u.sli.activeIndex = s.sli.activeIndex ∨ i = .sliInit ∨
    ∃ b, i = .sliByte b ∧ b ∈ s.cfg.terminators ∧ s.sli.writeOffset + 2 < s.cfg.capacity := by
  cases h with
  | lineInitialised => exact .inr (.inl rfl)
  | byteReceived b => exact (onByte_activeIndex_cases b s).imp id fun hterm => .inr ⟨b, rfl, hterm⟩
  | _ => exact .inl rfl

end Effect

theorem sliTake_answers_message {s : State} (hs : Framed s) (hport : s.port = .pf)
    (hlen : 3 ≤ s.completedLength s.sli.activeIndex.other) :
    ∃ t, exec .sliTake s = .next t ∧ t.sli.lb = s.sli.lb ∧
      t.lastAnswer = okWord (BitVec.ofNat 8 (1 - s.sli.activeIndex.index))
        (BitVec.ofNat 16 (s.completedLength s.sli.activeIndex.other)) ∧
      MessageAt t s.sli.activeIndex.other (s.completedLength s.sli.activeIndex.other) :=
  ⟨_, execSliTake_next.mpr ⟨hport, rfl⟩, rfl, by rw [answer_lastAnswer, Buf.other_index]; rfl, { hs.completed hlen with }⟩

/-- Settles O29: the framing invariant's message is the one SLI.TAKE answers, the terminator path makes the next one, and
`Effect.lbWritten_other` and `Effect.activeIndex_cases` say what a step can do to the view. -/
theorem takenViewIsMessage : Obligations.TakenViewIsMessage := by
  refine ⟨fun s => sliTake_answers_message, fun s t b hs hroom hb h => ?_, fun s t h => ?_⟩
  · obtain ⟨-, rfl⟩ := execSliByte_next.mp h
    rw [onByte_terminator hroom hb]
    refine ⟨?_, ?_, { terminatorPath_messageAt hs hroom hb with }⟩
    · rw [answer_sli, terminatorPath_activeIndex, Buf.other_other]
    · rw [answer_completedLength, terminatorPath_completedLength_active]
  · obtain ⟨-, ⟨-, rfl⟩ | ⟨rest, -, rfl⟩ | ⟨p, w, rest, i, t', hinbox, -, hdecode, hexec, rfl⟩⟩ := step_next_cases h
    · exact ⟨fun _ _ => rfl, fun hne => absurd rfl hne⟩
    · exact ⟨fun _ _ => rfl, fun hne => absurd rfl hne⟩
    · obtain ⟨u, r, heff, rfl⟩ := exec_effect hexec
      constructor
      · intro off hoff
        rw [State.lbWritten, trackRadio_cfg, trackRadio_sli]
        exact heff.lbWritten_other hoff
      · intro hne
        rw [trackRadio_sli, answer_sli] at hne
        refine ⟨p, w, rest, hinbox, ?_⟩
        obtain hkept | rfl | ⟨b, rfl, hterm⟩ := heff.activeIndex_cases
        · exact absurd hkept hne
        · exact .inl hdecode
        · exact .inr ⟨b, hdecode, hterm⟩

/-! #### The slots of the used window (R60, 10_state.md R34) -/

theorem mem_window {s : State} {slot : Nat} :
    slot ∈ s.window ↔ ∃ j < s.fp.usedCount, (s.fp.tail + j) % s.cfg.slots = slot := by
  simp [State.window]

/-- While a slot is free, the window does not reach around the ring to `head`: `head` lies `used_count < N` slots after `tail`, and the
window's slots fewer than that. -/
theorem PoolOk.head_notMem_window {s : State} (hs : PoolOk s) (hfree : s.fp.freeCount ≠ 0) : s.fp.head ∉ s.window := by
  rw [mem_window, hs.head]
  rintro ⟨j, hj, heq⟩
  have hused : s.fp.usedCount < s.cfg.slots := by have := hs.conserved; omega
  have hmod : j ≡ s.fp.usedCount [MOD s.cfg.slots] := Nat.ModEq.add_left_cancel' s.fp.tail heq
  have hsame : j = s.fp.usedCount := hmod.eq_of_lt_of_lt (by omega) hused
  omega

/-- The only slot a command writes is the one at `head`, and only while a slot is free (20_memory.md R52). -/
theorem Effect.slot_eq {s u : State} {i : Instr} (h : Effect s i u) {slot : Nat} (hslot : s.fp.freeCount ≠ 0 → slot ≠ s.fp.head) :
    (∀ off, off < s.cfg.payloadBytes → u.payloadWritten slot off = s.payloadWritten slot off) ∧
    Memory.read u.fp.length slot = Memory.read s.fp.length slot ∧
    Memory.read u.fp.crcOk slot = Memory.read s.fp.crcOk slot := by
  cases h with
  | payloadFilled v off hoff hhead hfree =>
    refine ⟨fun o ho => ?_, rfl, rfl⟩
    rw [payloadWritten_payloadWrite s _ slot v hoff ho, if_neg fun hsame => hslot hfree hsame.1]
  | lengthSet len hlen hhead hfree => exact ⟨fun _ _ => rfl, Memory.read_write_other _ len (hslot hfree), rfl⟩
  | frameRejected hhead hfree => exact ⟨fun _ _ => rfl, rfl, Memory.read_write_other _ false (hslot hfree)⟩
  | frameCommitted hhead hfree => exact ⟨fun _ _ => rfl, rfl, Memory.read_write_other _ true (hslot hfree)⟩
  | _ => exact ⟨fun _ _ => rfl, rfl, rfl⟩

/-- Settles O46: a slot of the window is not the one at `head` while that one is free to be written. -/
theorem windowSlotsStable : Obligations.WindowSlotsStable := by
  intro s t i hs h slot hslot
  obtain ⟨u, r, heff, rfl⟩ := exec_effect h
  exact heff.slot_eq fun hfree hhead => hs.head_notMem_window hfree (hhead ▸ hslot)

/-! #### Reading commands (R56) -/

theorem answer_answer_eq (s : State) (r : Word) :
    (s.answer r).answer r = { s with answers := s.answers ++ [(s.port, r), (s.port, r)] } := by
  simp [State.answer]

/-- A reading command, and an FP.RESERVE that finds a free slot, answers alike before and after its own answer has been given: no
command reads the answers (log entry 6). -/
theorem exec_read_repeats {i : Instr} {s t : State} (h : exec i s = .next t)
    (hi : onlyReads i = true ∨ (i = .fpReserve ∧ s.fp.freeCount ≠ 0)) :
    ∃ r, t = s.answer r ∧ exec i t = .next ((s.answer r).answer r) := by
  obtain hi | ⟨rfl, hfree⟩ := hi
  · cases i with
    | sliHas =>
      obtain ⟨hp, rfl⟩ := execSliHas_next.mp h
      exact ⟨_, rfl, execSliHas_next.mpr ⟨hp, rfl⟩⟩
    | sliRead k off =>
      obtain ⟨hp, buf, hk, ho, rfl⟩ := execSliRead_next.mp h
      exact ⟨_, rfl, execSliRead_next.mpr ⟨hp, buf, hk, ho, rfl⟩⟩
    | fpHasdata =>
      obtain ⟨hp, rfl⟩ := execFpHasdata_next.mp h
      exact ⟨_, rfl, execFpHasdata_next.mpr ⟨hp, rfl⟩⟩
    | fpPeek =>
      obtain ⟨hp, hused, rfl⟩ := execFpPeek_next.mp h
      exact ⟨_, rfl, execFpPeek_next.mpr ⟨hp, hused, rfl⟩⟩
    | fpRdlen slot =>
      obtain ⟨hp, hslot, rfl⟩ := execFpRdlen_next.mp h
      exact ⟨_, rfl, execFpRdlen_next.mpr ⟨hp, hslot, rfl⟩⟩
    | fpReadb slot off =>
      obtain ⟨hp, hop, rfl⟩ := execFpReadb_next.mp h
      exact ⟨_, rfl, execFpReadb_next.mpr ⟨hp, hop, rfl⟩⟩
    | fpOvf =>
      obtain ⟨hp, rfl⟩ := execFpOvf_next.mp h
      exact ⟨_, rfl, execFpOvf_next.mpr ⟨hp, rfl⟩⟩
    | _ => cases hi
  · obtain ⟨hp, rfl⟩ := execFpReserve_next.mp h
    rw [if_neg hfree]
    exact ⟨_, rfl, execFpReserve_next.mpr ⟨hp, (if_neg hfree).symm⟩⟩

/-- Settles O52, by `exec_read_repeats`. -/
theorem readsAreIdempotent : Obligations.ReadsAreIdempotent := by
  intro i s t h hi
  have hreads : onlyReads i = true ∨ (i = .fpReserve ∧ s.fp.freeCount ≠ 0) := by
    obtain rfl | ⟨_, _, rfl⟩ | rfl | rfl | ⟨_, rfl⟩ | ⟨_, _, rfl⟩ | rfl | hreserve := hi
    iterate 7 exact .inl rfl
    exact .inr hreserve
  obtain ⟨r, ht, hrepeat⟩ := exec_read_repeats h hreads
  exact ⟨r, ht, answer_answer_eq s r ▸ hrepeat⟩

end Sys2Proof.Machine

/-! ### Encoding (30_encoding.md R70 to R77): the decoder, the encoder and the opcode table say the same -/

namespace Sys2Proof

@[simp] theorem decode_packFields (op a : Byte) (x : Half) : decode (packFields op a x) = decodeFields op a x := by
  simp [decode]

/-! #### The five formats (R71): when the fields are a command of the format, and when they are not -/

theorem formatZ_eq_command {a : Byte} {x : Half} {i j : Instr} :
    formatZ a x j = .command i ↔ (a = 0#8 ∧ x = 0#16) ∧ j = i := by
  unfold formatZ; split_ifs with h <;> simp [h]

theorem formatA_eq_command {a : Byte} {x : Half} {mk : Byte → Instr} {i : Instr} :
    formatA a x mk = .command i ↔ x = 0#16 ∧ mk a = i := by
  unfold formatA; split_ifs with h <;> simp [h]

theorem formatX_eq_command {a : Byte} {x : Half} {mk : Half → Instr} {i : Instr} :
    formatX a x mk = .command i ↔ a = 0#8 ∧ mk x = i := by
  unfold formatX; split_ifs with h <;> simp [h]

theorem formatAX_eq_command {a : Byte} {x : Half} {mk : Byte → Half → Instr} {i : Instr} :
    formatAX a x mk = .command i ↔ mk a x = i := by
  simp [formatAX]

/-- The field bits that format F wants zero are all but the flag. -/
theorem unusedFlagBits_eq_zero {a : Byte} : a.extractLsb' 1 7 = 0#7 ↔ a.toNat ≤ 1 := by
  have ha := a.isLt
  rw [← BitVec.toNat_inj, BitVec.extractLsb'_toNat, Nat.shiftRight_eq_div_pow]
  simp only [BitVec.toNat_ofNat]
  omega

/-- A field of format F is its flag. -/
theorem flagField_eq {a : Byte} (ha : a.toNat ≤ 1) : (if a.getLsbD 0 then 1#8 else 0#8) = a := by
  obtain h | h : a = 0#8 ∨ a = 1#8 := by
    simp only [← BitVec.toNat_inj, BitVec.toNat_ofNat]
    omega
  · rw [h]; rfl
  · rw [h]; rfl

theorem formatF_eq_command {a : Byte} {x : Half} {mk : Bool → Instr} {i : Instr} :
    formatF a x mk = .command i ↔ (a.toNat ≤ 1 ∧ x = 0#16) ∧ mk (a.getLsbD 0) = i := by
  rw [← unusedFlagBits_eq_zero]; unfold formatF; split_ifs with h <;> simp [h]

theorem formatZ_illegal {a : Byte} {x : Half} (i : Instr) (h : ¬(a = 0#8 ∧ x = 0#16)) :
    formatZ a x i = .illegal .nonZeroField := if_neg h

theorem formatA_illegal (a : Byte) {x : Half} (mk : Byte → Instr) (h : x ≠ 0#16) :
    formatA a x mk = .illegal .nonZeroField := if_neg h

theorem formatX_illegal {a : Byte} (x : Half) (mk : Half → Instr) (h : a ≠ 0#8) :
    formatX a x mk = .illegal .nonZeroField := if_neg h

theorem formatF_illegal {a : Byte} {x : Half} (mk : Bool → Instr) (h : ¬(a.toNat ≤ 1 ∧ x = 0#16)) :
    formatF a x mk = .illegal .nonZeroField := by
  rw [← unusedFlagBits_eq_zero] at h
  exact if_neg h

/-! #### The round trip -/

/-- The opcode of a command's word selects its own row of the map, and its operands meet the row's format. -/
theorem decode_encode (i : Instr) : decode (encode i) = .command i := by
  cases i with
  | sliByte b | fpRdlen b =>
    rw [encode, decode_packFields]
    exact formatA_eq_command.mpr ⟨rfl, rfl⟩
  | sliRead k off | fpFillb k off | fpReadb k off =>
    rw [encode, decode_packFields]
    exact formatAX_eq_command.mpr rfl
  | fpSetlen len =>
    rw [encode, decode_packFields]
    exact formatX_eq_command.mpr ⟨rfl, rfl⟩
  | fpCommit f =>
    rw [encode, decode_packFields]
    cases f with
    | false => exact formatF_eq_command.mpr ⟨⟨by decide, rfl⟩, rfl⟩
    | true => exact formatF_eq_command.mpr ⟨⟨by decide, rfl⟩, rfl⟩
  | _ =>
    rw [encode, decode_packFields]
    exact formatZ_eq_command.mpr ⟨⟨rfl, rfl⟩, rfl⟩

/-- Each row of the map builds a command whose word has the row's opcode and, in the places of its format, the fields read. -/
theorem encode_of_decodeFields {op a : Byte} {x : Half} {i : Instr} (h : decodeFields op a x = .command i) :
    encode i = packFields op a x := by
  have hop {n : Nat} (hn : op.toNat = n) : op = BitVec.ofNat 8 n := by rw [← hn, BitVec.ofNat_toNat, BitVec.setWidth_eq]
  unfold decodeFields at h
  split at h
  -- format A: SLI.BYTE, FP.RDLEN
  case h_2 hn | h_14 hn =>
    obtain ⟨rfl, rfl⟩ := formatA_eq_command.mp h
    rw [hop hn]; rfl
  -- format AX: SLI.READ, FP.FILLB, FP.READB
  case h_5 hn | h_9 hn | h_15 hn =>
    obtain rfl := formatAX_eq_command.mp h
    rw [hop hn]; rfl
  -- format X: FP.SETLEN
  case h_10 hn =>
    obtain ⟨rfl, rfl⟩ := formatX_eq_command.mp h
    rw [hop hn]; rfl
  -- format F: FP.COMMIT
  case h_11 hn =>
    obtain ⟨⟨ha, rfl⟩, rfl⟩ := formatF_eq_command.mp h
    rw [hop hn, encode, flagField_eq ha]
  -- no row
  case h_19 => split_ifs at h
  -- format Z: the commands without operands
  all_goals
    obtain ⟨⟨rfl, rfl⟩, rfl⟩ := formatZ_eq_command.mp h
    rw [hop ‹op.toNat = _›]; rfl

theorem encode_of_decode {w : Word} {i : Instr} (h : decode w = .command i) : encode i = w :=
  (encode_of_decodeFields h).trans (packFields_fields w)

/-- Settles O2, by `decode_encode`. -/
theorem decodeOfEncode : Obligations.DecodeOfEncode := decode_encode

/-- Settles O3, by `encode_of_decodeFields`. -/
theorem encodeOfDecode : Obligations.EncodeOfDecode := fun _ _ => encode_of_decode

/-- Settles O1: each word of the vectors is its command's word. -/
theorem decodeVectorWords : Obligations.DecodeVectorWords :=
  ⟨decode_encode .sliInit, decode_encode (.sliByte 0x41#8), decode_encode (.sliRead 1#8 9#16),
    decode_encode (.fpFillb 0x5C#8 3#16), decode_encode (.fpSetlen 255#16), decode_encode (.fpCommit false),
    decode_encode (.fpCommit true), decode_encode (.fpRdlen 1#8), decode_encode (.fpReadb 1#8 2#16), decode_encode .fpReset⟩

/-! #### Illegal words (R75) -/

theorem opField_encode_range (i : Instr) :
    (0x10 ≤ (opField (encode i)).toNat ∧ (opField (encode i)).toNat ≤ 0x15) ∨
    (0x20 ≤ (opField (encode i)).toNat ∧ (opField (encode i)).toNat ≤ 0x2B) := by
  cases i <;> rw [encode, opField_packFields] <;> decide

/-- The opcodes of the commands without operands are read in format Z. -/
theorem decodeFields_eq_formatZ {op : Byte}
    (h : op ∈ [0x10#8, 0x12#8, 0x13#8, 0x15#8, 0x20#8, 0x21#8, 0x25#8, 0x26#8, 0x29#8, 0x2A#8, 0x2B#8]) :
    ∃ i, ∀ a x, decodeFields op a x = formatZ a x i := by
  simp only [List.mem_cons, List.not_mem_nil, or_false] at h
  obtain rfl | rfl | rfl | rfl | rfl | rfl | rfl | rfl | rfl | rfl | rfl := h
  all_goals exact ⟨_, fun _ _ => rfl⟩

/-- The opcodes of SLI.BYTE and FP.RDLEN are read in format A. -/
theorem decodeFields_eq_formatA {op : Byte} (h : op ∈ [0x11#8, 0x27#8]) :
    ∃ mk, ∀ a x, decodeFields op a x = formatA a x mk := by
  simp only [List.mem_cons, List.not_mem_nil, or_false] at h
  obtain rfl | rfl := h
  all_goals exact ⟨_, fun _ _ => rfl⟩

/-- Settles O5: no command's word has an opcode outside the two ranges, and a legal opcode is read in its format. -/
theorem illegalWords : Obligations.IllegalWords := by
  refine ⟨fun op a x hsli hfp => ?_, fun op a x hop hne => ?_, fun op a x hop hne => ?_, fun a x hne => ?_, fun a x hne => ?_⟩
  · match hd : decode (packFields op a x) with
    | .illegal why => exact ⟨why, rfl⟩
    | .command i =>
      have hrange := opField_encode_range i
      rw [encode_of_decode hd, opField_packFields] at hrange
      exact absurd hrange (not_or.mpr ⟨hsli, hfp⟩)
  · obtain ⟨i, hi⟩ := decodeFields_eq_formatZ hop
    rw [decode_packFields, hi, formatZ_illegal i hne]
  · obtain ⟨mk, hmk⟩ := decodeFields_eq_formatA hop
    rw [decode_packFields, hmk, formatA_illegal a mk hne]
  · rw [decode_packFields]
    exact formatF_illegal .fpCommit hne
  · rw [decode_packFields]
    exact formatX_illegal x .fpSetlen hne

/-! #### The opcode table (R74) -/

theorem opField_and (w mask : Word) : opField (w &&& mask) = opField w &&& opField mask := BitVec.extractLsb'_and

/-- What `cmd & mask = match` says field by field, of a mask that covers the opcode and a match without operands. -/
theorem fields_of_match {w : Word} {op ma : Byte} {mx : Half}
    (h : w &&& packFields 0xFF#8 ma mx = packFields op 0#8 0#16) :
    packFields op (aField w) (xField w) = w ∧ aField w &&& ma = 0#8 ∧ xField w &&& mx = 0#16 := by
  rw [← packFields_fields w, packFields_and, packFields_inj] at h
  obtain ⟨hop, ha, hx⟩ := h
  obtain rfl : opField w = op := BitVec.and_allOnes.symm.trans hop
  exact ⟨packFields_fields w, ha, hx⟩

theorem word_of_maskZ {w : Word} {op : Byte} (h : w &&& 0xFFFFFFFF#32 = packFields op 0#8 0#16) :
    packFields op 0#8 0#16 = w := h.symm.trans BitVec.and_allOnes

theorem word_of_maskA {w : Word} {op : Byte} (h : w &&& 0xFF00FFFF#32 = packFields op 0#8 0#16) :
    packFields op (aField w) 0#16 = w := by
  obtain ⟨hw, -, hx⟩ := fields_of_match (ma := 0x00#8) (mx := 0xFFFF#16) h
  rwa [BitVec.and_allOnes.symm.trans hx] at hw

theorem word_of_maskX {w : Word} {op : Byte} (h : w &&& 0xFFFF0000#32 = packFields op 0#8 0#16) :
    packFields op 0#8 (xField w) = w := by
  obtain ⟨hw, ha, -⟩ := fields_of_match (ma := 0xFF#8) (mx := 0x0000#16) h
  rwa [BitVec.and_allOnes.symm.trans ha] at hw

theorem word_of_maskAX {w : Word} {op : Byte} (h : w &&& 0xFF000000#32 = packFields op 0#8 0#16) :
    packFields op (aField w) (xField w) = w :=
  (fields_of_match (ma := 0x00#8) (mx := 0x0000#16) h).1

/-- The mask of format F clears the flag and no other bit of the field. -/
theorem flagField_of_and_mask {a : Byte} (h : a &&& 0xFE#8 = 0#8) : a.toNat ≤ 1 := by
  rw [← unusedFlagBits_eq_zero]
  calc a.extractLsb' 1 7 = a.extractLsb' 1 7 &&& BitVec.allOnes 7 := BitVec.and_allOnes.symm
    _ = (a &&& 0xFE#8).extractLsb' 1 7 := (BitVec.extractLsb'_and (x := a) (y := 0xFE#8)).symm
    _ = 0#7 := by rw [h]; rfl

theorem word_of_maskF {w : Word} {op : Byte} (h : w &&& 0xFFFEFFFF#32 = packFields op 0#8 0#16) :
    packFields op (if (aField w).getLsbD 0 then 1#8 else 0#8) 0#16 = w := by
  obtain ⟨hw, ha, hx⟩ := fields_of_match (ma := 0xFE#8) (mx := 0xFFFF#16) h
  rw [flagField_eq (flagField_of_and_mask ha)]
  rwa [BitVec.and_allOnes.symm.trans hx] at hw

/-- A word that matches a row is the word of a command, whose operands are the fields the row's mask leaves open. -/
theorem exists_encode_of_match : ∀ r ∈ opcodeTable, ∀ w : Word, w &&& r.mask = r.pattern → ∃ i, encode i = w := by
  simp only [opcodeTable, List.cons_append, List.nil_append, List.forall_mem_cons]
  exact
    ⟨fun _ h => ⟨.sliInit, word_of_maskZ h⟩,
      fun w h => ⟨.sliByte (aField w), word_of_maskA h⟩,
      fun _ h => ⟨.sliHas, word_of_maskZ h⟩,
      fun _ h => ⟨.sliTake, word_of_maskZ h⟩,
      fun w h => ⟨.sliRead (aField w) (xField w), word_of_maskAX h⟩,
      fun _ h => ⟨.sliReset, word_of_maskZ h⟩,
      fun _ h => ⟨.fpInit, word_of_maskZ h⟩,
      fun _ h => ⟨.fpReserve, word_of_maskZ h⟩,
      fun w h => ⟨.fpFillb (aField w) (xField w), word_of_maskAX h⟩,
      fun w h => ⟨.fpSetlen (xField w), word_of_maskX h⟩,
      fun w h => ⟨.fpCommit ((aField w).getLsbD 0), word_of_maskF h⟩,
      fun _ h => ⟨.fpHasdata, word_of_maskZ h⟩,
      fun _ h => ⟨.fpPeek, word_of_maskZ h⟩,
      fun w h => ⟨.fpRdlen (aField w), word_of_maskA h⟩,
      fun w h => ⟨.fpReadb (aField w) (xField w), word_of_maskAX h⟩,
      fun _ h => ⟨.fpRelease, word_of_maskZ h⟩,
      fun _ h => ⟨.fpOvf, word_of_maskZ h⟩,
      fun _ h => ⟨.fpReset, word_of_maskZ h⟩,
      fun _ h => absurd h (List.not_mem_nil)⟩

/-- Every row's mask covers the opcode, so a match fixes it. -/
theorem opField_of_match {w : Word} {r : Row} (hr : r ∈ opcodeTable) (h : w &&& r.mask = r.pattern) :
    opField w = opField r.pattern := by
  have hmask : ∀ r ∈ opcodeTable, opField r.mask = 0xFF#8 := by decide
  rw [← h, opField_and, hmask r hr]
  exact BitVec.and_allOnes.symm

/-- No word matches two rows: the rows' opcodes are pairwise different. -/
theorem row_unique {w : Word} {r r' : Row} (hr : r ∈ opcodeTable) (hr' : r' ∈ opcodeTable)
    (h : w &&& r.mask = r.pattern) (h' : w &&& r'.mask = r'.pattern) : r = r' := by
  have hops : (opcodeTable.map fun r => opField r.pattern).Nodup := by decide
  exact List.inj_on_of_nodup_map hops hr hr' ((opField_of_match hr h).symm.trans (opField_of_match hr' h'))

theorem Laws.TableRow.statement : ∀ i, Laws.TableRow.Statement i
  | .sliInit => sliInit
  | .sliByte b => sliByte b
  | .sliHas => sliHas
  | .sliTake => sliTake
  | .sliRead k off => sliRead k off
  | .sliReset => sliReset
  | .fpInit => fpInit
  | .fpReserve => fpReserve
  | .fpFillb v off => fpFillb v off
  | .fpSetlen len => fpSetlen len
  | .fpCommit f => fpCommit f
  | .fpHasdata => fpHasdata
  | .fpPeek => fpPeek
  | .fpRdlen slot => fpRdlen slot
  | .fpReadb slot off => fpReadb slot off
  | .fpRelease => fpRelease
  | .fpOvf => fpOvf
  | .fpReset => fpReset

/-- The word of a command matches a row, which names the command and its port. -/
theorem exists_row_of_decode {w : Word} {i : Instr} (h : decode w = .command i) :
    ∃ r ∈ opcodeTable, r.mnemonic = i.mnemonic ∧ r.port = i.port ∧ w &&& r.mask = r.pattern := by
  rw [← encode_of_decode h]
  exact Laws.TableRow.statement i

/-- Settles O4: a decoded word has its command's row (`exists_row_of_decode`), a matching word is a command's
(`exists_encode_of_match`), and no other row matches (`row_unique`). -/
theorem decodeAgreesWithTable : Obligations.DecodeAgreesWithTable := by
  refine fun w => ⟨⟨fun ⟨i, hd⟩ => ?_, fun ⟨r, hr, hmatch⟩ => ?_⟩, fun i hd r hr hmatch => ?_,
    fun r hr r' hr' => row_unique hr hr'⟩
  · obtain ⟨r, hr, -, -, hmatch⟩ := exists_row_of_decode hd
    exact ⟨r, hr, hmatch⟩
  · obtain ⟨i, rfl⟩ := exists_encode_of_match r hr w hmatch
    exact ⟨i, decode_encode i⟩
  · obtain ⟨r', hr', hname, hport, hmatch'⟩ := exists_row_of_decode hd
    obtain rfl := row_unique hr hr' hmatch hmatch'
    exact ⟨hname, hport⟩

end Sys2Proof

namespace Sys2Proof.Machine

/-! #### Response words (R73) -/

theorem okWord_toNat (ra : Byte) (rx : Half) : (okWord ra rx).toNat = ra.toNat * 65536 + rx.toNat := by
  have hrx : rx.toNat < 2 ^ 16 := rx.isLt
  rw [okWord, BitVec.toNat_append, BitVec.toNat_append, ← Nat.shiftLeft_add_eq_or_of_lt hrx, Nat.shiftLeft_eq]
  simp

/-- Settles O6; the words of NONE and of the six causes are evaluated. -/
theorem responseWordLayout : Obligations.ResponseWordLayout :=
  ⟨okWord_toNat, rfl, rfl, rfl, rfl, rfl, rfl, rfl⟩

/-- Settles O54: only a command uses up a command word, and one that completes gives one answer (`exec_next_eq`). -/
theorem oneAnswerPerCommand : Obligations.OneAnswerPerCommand := by
  intro s t p w rest hinbox h
  obtain ⟨-, ⟨hempty, -⟩ | ⟨rest', hreturn, -⟩ | ⟨p', w', rest', i, u, hcommand, -, -, hexec, rfl⟩⟩ := step_next_cases h
  · rw [hinbox] at hempty; cases hempty
  · rw [hinbox] at hreturn; cases hreturn
  · rw [hinbox] at hcommand
    cases hcommand
    obtain ⟨r, hu⟩ := exec_next_eq hexec
    rw [trackRadio_answers, trackRadio_inbox, hu]
    exact ⟨r, rfl, rfl⟩

/-! #### The step, by its next input (R77, 60_exceptions.md R144) -/

section
variable {s : State} {p : Port} {w : Word} {rest : List Input}

theorem fetch_command (hc : s.cfg.WellFormed) (hinbox : s.inbox = .command p w :: rest)
    (hmove : ¬(p = .pf ∧ s.radioOpen = true)) : fetch s = .command w { s with port := p, inbox := rest } := by
  rw [fetch, if_pos hc, hinbox]
  exact if_neg hmove

theorem step_command {i : Instr} (hc : s.cfg.WellFormed) (hinbox : s.inbox = .command p w :: rest)
    (hmove : ¬(p = .pf ∧ s.radioOpen = true)) (hdecode : decode w = .command i) :
    step s = settle i (exec i { s with port := p, inbox := rest }) := by
  simp only [step, fetch_command hc hinbox hmove, hdecode]

theorem step_illegal {why : Illegal} (hc : s.cfg.WellFormed) (hinbox : s.inbox = .command p w :: rest)
    (hmove : ¬(p = .pf ∧ s.radioOpen = true)) (hdecode : decode w = .illegal why) : step s = .fault .illegalCommand := by
  simp only [step, fetch_command hc hinbox hmove, hdecode, respondFault]

theorem step_badConfiguration (hc : ¬s.cfg.WellFormed) : step s = .refused .badConfiguration := by
  rw [step, fetch, if_neg hc]

theorem step_idle (hc : s.cfg.WellFormed) (hinbox : s.inbox = []) : step s = .next s := by
  rw [step, fetch, if_pos hc, hinbox]

theorem step_radioReturn (hc : s.cfg.WellFormed) (hinbox : s.inbox = .radioReturn :: rest) :
    step s = .next { s with inbox := rest, radioOpen := false } := by
  rw [step, fetch, if_pos hc, hinbox]

end

theorem trackRadio_eq (i : Instr) (u : State) :
    u.trackRadio i = { u with
      radioOpen :=
        if i = .fpReserve then decide (u.fp.freeCount ≠ 0)
        else if i = .fpCommit false ∨ i = .fpCommit true then false
        else u.radioOpen } := by
  cases i with
  | fpCommit f => cases f <;> simp [State.trackRadio]
  | _ => simp [State.trackRadio]

/-- Settles O7, by `step_command`; `trackRadio_eq` is what is around `exec`. -/
theorem stepRunsTheDecodedCommand : Obligations.StepRunsTheDecodedCommand := by
  intro s p w rest i hc hinbox hmove hdecode
  rw [step_command hc hinbox hmove hdecode]
  refine ⟨fun f hfault => ?_, fun u hnext => ?_⟩
  · rw [hfault, settle]
  · rw [hnext, settle, trackRadio_eq]

/-- Settles O8, input by input. -/
theorem stepsThatExecuteNothing : Obligations.StepsThatExecuteNothing :=
  ⟨fun _ _ _ _ _ => step_illegal, fun _ => step_badConfiguration, fun _ => step_idle, fun _ _ => step_radioReturn⟩

/-! #### Operands that name nothing (R72, 60_exceptions.md R150, R152) -/

/-- The commands that write the slot at `head` (20_memory.md R52). -/
def writesHeadSlot : Instr → Bool
  | .fpFillb _ _ | .fpSetlen _ | .fpCommit _ => true
  | _ => false

/-- The guard of the commands that write the slot at `head` answers BAD_INDEX for the operand and for `head`, before it looks at
the free slots. -/
theorem onHeadSlot_eq_badIndex {ok : Bool} {s u : State} {ra : Byte} {rx : Half} :
    onHeadSlot ok s (respondOk ra rx u) = .fault .badIndex ↔ ok = false ∨ s.cfg.slots ≤ s.fp.head := by
  unfold onHeadSlot respondFault respondOk inPool
  split_ifs with hslot hfree
  · simp_all
  · simp_all
  · simpa [or_iff_not_imp_left] using hslot

theorem execSliRead_eq_badIndex {k : Byte} {off : Half} {s : State} (hp : s.port = .pf) :
    execSliRead k off s = .fault .badIndex ↔ (Instr.sliRead k off).WellFormed s.cfg = false := by
  rw [execSliRead, onPort_own _ hp]
  match hbuf : bufferOf k with
  | none =>
    have hk := bufferOf_eq_none.mp hbuf
    simp [respondFault, Instr.WellFormed, show ¬k.toNat ≤ 1 by omega]
  | some buf =>
    have hk : k.toNat ≤ 1 := by rw [bufferOf_eq_some.mp hbuf]; cases buf <;> decide
    by_cases hoff : off.toNat < s.cfg.capacity <;> simp [respondFault, respondOk, inBuffer, Instr.WellFormed, hk, hoff]

theorem execFpRdlen_eq_badIndex {slot : Byte} {s : State} (hp : s.port = .pf) :
    execFpRdlen slot s = .fault .badIndex ↔ (Instr.fpRdlen slot).WellFormed s.cfg = false := by
  rw [execFpRdlen, onPort_own _ hp, Instr.WellFormed, inPool]
  split_ifs with hslot <;> simp [respondFault, respondOk, hslot]

theorem execFpReadb_eq_badIndex {slot : Byte} {off : Half} {s : State} (hp : s.port = .pf) :
    execFpReadb slot off s = .fault .badIndex ↔ (Instr.fpReadb slot off).WellFormed s.cfg = false := by
  rw [execFpReadb, onPort_own _ hp, Instr.WellFormed, inPool, inPayload]
  split_ifs with hslot <;> simp [respondFault, respondOk, hslot]

theorem execFpFillb_eq_badIndex {v : Byte} {off : Half} {s : State} (hp : s.port = .pr) :
    execFpFillb v off s = .fault .badIndex ↔
      (Instr.fpFillb v off).WellFormed s.cfg = false ∨ s.cfg.slots ≤ s.fp.head := by
  rw [execFpFillb, onPort_own _ hp]
  exact onHeadSlot_eq_badIndex

theorem execFpSetlen_eq_badIndex {len : Half} {s : State} (hp : s.port = .pr) :
    execFpSetlen len s = .fault .badIndex ↔
      (Instr.fpSetlen len).WellFormed s.cfg = false ∨ s.cfg.slots ≤ s.fp.head := by
  rw [execFpSetlen, onPort_own _ hp]
  exact onHeadSlot_eq_badIndex

theorem execFpCommit_eq_badIndex {f : Bool} {s : State} (hp : s.port = .pr) :
    execFpCommit f s = .fault .badIndex ↔
      (Instr.fpCommit f).WellFormed s.cfg = false ∨ s.cfg.slots ≤ s.fp.head := by
  rw [execFpCommit, onPort_own _ hp]
  exact onHeadSlot_eq_badIndex

theorem execFpPeek_eq_badIndex {s : State} (hp : s.port = .pf) :
    execFpPeek s = .fault .badIndex ↔ Instr.fpPeek.WellFormed s.cfg = false := by
  rw [execFpPeek, onPort_own _ hp, Instr.WellFormed]
  split_ifs <;> simp [respondFault, respondOk]

theorem execFpRelease_eq_badIndex {s : State} (hp : s.port = .pf) :
    execFpRelease s = .fault .badIndex ↔ Instr.fpRelease.WellFormed s.cfg = false := by
  rw [execFpRelease, onPort_own _ hp, Instr.WellFormed]
  split_ifs <;> simp [respondFault, respondOk]

theorem exec_eq_badIndex_of_next {i : Instr} {s t : State} (h : exec i s = .next t) (hi : i.WellFormed s.cfg = true) :
    exec i s = .fault .badIndex ↔ i.WellFormed s.cfg = false := by simp [h, hi]

/-- A command that does not write the slot at `head` answers BAD_INDEX on its own port exactly for an operand that names nothing. -/
theorem exec_eq_badIndex {i : Instr} {s : State} (hp : s.port = i.port) (hi : writesHeadSlot i = false) :
    exec i s = .fault .badIndex ↔ i.WellFormed s.cfg = false := by
  cases i with
  | sliInit => exact exec_eq_badIndex_of_next (execSliInit_next.mpr ⟨hp, rfl⟩) rfl
  | sliByte b => exact exec_eq_badIndex_of_next (execSliByte_next.mpr ⟨hp, rfl⟩) rfl
  | sliHas => exact exec_eq_badIndex_of_next (execSliHas_next.mpr ⟨hp, rfl⟩) rfl
  | sliTake => exact exec_eq_badIndex_of_next (execSliTake_next.mpr ⟨hp, rfl⟩) rfl
  | sliRead k off => exact execSliRead_eq_badIndex hp
  | sliReset => exact exec_eq_badIndex_of_next (execSliReset_next.mpr ⟨hp, rfl⟩) rfl
  | fpInit => exact exec_eq_badIndex_of_next (execFpInit_next.mpr ⟨hp, rfl⟩) rfl
  | fpReserve => exact exec_eq_badIndex_of_next (execFpReserve_next.mpr ⟨hp, rfl⟩) rfl
  | fpHasdata => exact exec_eq_badIndex_of_next (execFpHasdata_next.mpr ⟨hp, rfl⟩) rfl
  | fpPeek => exact execFpPeek_eq_badIndex hp
  | fpRdlen slot => exact execFpRdlen_eq_badIndex hp
  | fpReadb slot off => exact execFpReadb_eq_badIndex hp
  | fpRelease => exact execFpRelease_eq_badIndex hp
  | fpOvf => exact exec_eq_badIndex_of_next (execFpOvf_next.mpr ⟨hp, rfl⟩) rfl
  | fpReset => exact exec_eq_badIndex_of_next (execFpReset_next.mpr ⟨hp, rfl⟩) rfl
  | fpFillb | fpSetlen | fpCommit => cases hi

/-- A command that writes the slot at `head` answers BAD_INDEX also for a `head` that is no slot (log entry 11). -/
theorem exec_eq_badIndex_of_writesHeadSlot {i : Instr} {s : State} (hp : s.port = i.port) (hi : writesHeadSlot i = true) :
    exec i s = .fault .badIndex ↔ i.WellFormed s.cfg = false ∨ s.cfg.slots ≤ s.fp.head := by
  cases i with
  | fpFillb v off => exact execFpFillb_eq_badIndex hp
  | fpSetlen len => exact execFpSetlen_eq_badIndex hp
  | fpCommit f => exact execFpCommit_eq_badIndex hp
  | _ => cases hi

/-- Settles O11; where `head` is a slot, the commands that write it have no cause of BAD_INDEX but their operands either. -/
theorem badIndexExactly : Obligations.BadIndexExactly := by
  intro i s hp
  cases hi : writesHeadSlot i with
  | false =>
    have hiff := exec_eq_badIndex hp hi
    exact ⟨hiff.mpr, fun _ => hiff.mp⟩
  | true =>
    have hiff := exec_eq_badIndex_of_writesHeadSlot hp hi
    exact ⟨fun hw => hiff.mpr (.inl hw), fun hhead h => (hiff.mp h).resolve_right (Nat.not_le.mpr hhead)⟩

end Sys2Proof.Machine

/-! ### SerialLineIntake (40_serial_line_intake.md R90 to R104): the framing of messages, the commands, whole lines -/

namespace Sys2Proof.Machine

/-! #### The three paths of SLI.BYTE (R92 to R94) -/

theorem State.setCompletedLength_eq (s : State) (k : Buf) (n : Nat) : s.setCompletedLength k n = { s with
    sli := { s.sli with
      completedLength0 := (s.setCompletedLength k n).sli.completedLength0
      completedLength1 := (s.setCompletedLength k n).sli.completedLength1 } } := by
  cases k <;> rfl

/-- The frame of the terminator path (R93). -/
theorem terminatorPath_eq (b : Byte) (s : State) : terminatorPath b s = { s with
    sli := { s.sli with
      lb := (terminatorPath b s).sli.lb, writeOffset := 0, messageReady := true, activeIndex := s.sli.activeIndex.other
      completedLength0 := (terminatorPath b s).sli.completedLength0
      completedLength1 := (terminatorPath b s).sli.completedLength1 } } := by
  rw [terminatorPath, State.setCompletedLength_eq]
  rfl

/-- The frame of the overlong path (R94). -/
theorem overlongPath_eq (s : State) : overlongPath s = { s with
    sli := { s.sli with
      writeOffset := 0, messageReady := true
      completedLength0 := (overlongPath s).sli.completedLength0
      completedLength1 := (overlongPath s).sli.completedLength1 } } := by
  rw [overlongPath, State.setCompletedLength_eq]
  rfl

theorem overlongPath_cfg (s : State) : (overlongPath s).cfg = s.cfg := by simp [overlongPath]

theorem overlongPath_lb (s : State) : (overlongPath s).sli.lb = s.sli.lb := by simp [overlongPath]

theorem overlongPath_activeIndex (s : State) : (overlongPath s).sli.activeIndex = s.sli.activeIndex := by simp [overlongPath]

/-- The terminator path records the length of the message at its buffer. -/
theorem terminatorPath_completedLength (b : Byte) (s : State) (k : Buf) : (terminatorPath b s).completedLength k =
    if k = s.sli.activeIndex then s.sli.writeOffset + 3 else s.completedLength k := by
  simp [terminatorPath, setCompletedLength_completedLength, Config.trailer]

/-- The overlong path records the marker at the buffer SLI.TAKE answers. -/
theorem overlongPath_completedLength (s : State) (k : Buf) : (overlongPath s).completedLength k =
    if k = s.sli.activeIndex.other then 1 else s.completedLength k := by
  simp [overlongPath, setCompletedLength_completedLength, Config.overlongMark]

theorem overlongPath_completedLength_other (s : State) : (overlongPath s).completedLength s.sli.activeIndex.other = 1 := by
  rw [overlongPath_completedLength, if_pos rfl]

theorem overlongPath_completedLength_active (s : State) :
    (overlongPath s).completedLength s.sli.activeIndex = s.completedLength s.sli.activeIndex := by
  rw [overlongPath_completedLength, if_neg (Buf.other_ne _).symm]

/-- The bytes the terminator path stores, at every address of LB. -/
theorem terminatorPath_read (b : Byte) (s : State) (addr : Nat) : Memory.read (terminatorPath b s).sli.lb addr =
    if addr = lbAddr s.cfg s.sli.activeIndex s.sli.writeOffset then some b
    else if addr = lbAddr s.cfg s.sli.activeIndex (s.sli.writeOffset + 1) ∨
      addr = lbAddr s.cfg s.sli.activeIndex (s.sli.writeOffset + 2) then some 0x00#8
    else Memory.read s.sli.lb addr := by
  have hnext : lbAddr s.cfg s.sli.activeIndex (s.sli.writeOffset + 1) = lbAddr s.cfg s.sli.activeIndex s.sli.writeOffset + 1 := rfl
  have hlast : lbAddr s.cfg s.sli.activeIndex (s.sli.writeOffset + 2) = lbAddr s.cfg s.sli.activeIndex s.sli.writeOffset + 2 := rfl
  simp only [terminatorPath, setReady_sli_lb, setOffset_sli_lb, setActive_sli_lb, setCompletedLength_sli_lb, lbWrite_sli_lb,
    lbWrite_cfg, Memory.read_write, Config.zero, hnext, hlast]
  generalize lbAddr s.cfg s.sli.activeIndex s.sli.writeOffset = base
  obtain rfl | hbyte := eq_or_ne addr base
  · simp
  obtain rfl | htrailer := eq_or_ne addr (base + 2)
  · simp
  · simp [hbyte, htrailer]

/-! #### The framing invariant (R103, 10_state.md R22, R23) -/

/-- The message a buffer holds is a matter of the parameters and of the bytes of that buffer. -/
theorem MessageAt.of_lbWritten_eq {s t : State} {k : Buf} {L : Nat} (hs : MessageAt s k L) (hcfg : t.cfg = s.cfg) (hlen : 3 ≤ L)
    (hfit : L ≤ s.cfg.capacity) (heq : ∀ off, off < s.cfg.capacity → t.lbWritten k off = s.lbWritten k off) : MessageAt t k L where
  text off hoff := by
    rw [heq off (by omega), hcfg]
    exact hs.text off hoff
  terminator := by
    rw [heq _ (by omega), hcfg]
    exact hs.terminator
  trailer1 := by rw [heq _ (by omega), hs.trailer1]
  trailer2 := by rw [heq _ (by omega), hs.trailer2]

theorem SliOk.length_le {s : State} (hs : SliOk s) {k : Buf} (hlen : 3 ≤ s.completedLength k) :
    s.completedLength k ≤ s.cfg.capacity := by
  have := hs.lengths k
  omega

/-- The partial text is one byte longer, and the message in the other buffer is not touched (R92). -/
theorem ordinaryPath_framed {b : Byte} {s : State} (hs : Framed s) (hroom : s.sli.writeOffset + 2 < s.cfg.capacity)
    (hb : b ∉ s.cfg.terminators) : Framed (ordinaryPath b s) where
  ranges := { hs.ranges with offset := hroom }
  partialText off hoff := by
    change off < s.sli.writeOffset + 1 at hoff
    change ∃ c, (ordinaryPath b s).lbWritten s.sli.activeIndex off = some c ∧ c ∉ s.cfg.terminators
    rw [ordinaryPath_lbWritten b s hroom _ (by omega)]
    by_cases hnew : off = s.sli.writeOffset
    · exact ⟨b, if_pos ⟨rfl, hnew⟩, hb⟩
    · rw [if_neg fun hsame => hnew hsame.2]
      exact hs.partialText off (by omega)
  completed hlen := by
    refine (hs.completed hlen).of_lbWritten_eq rfl hlen (hs.ranges.length_le hlen) fun off hoff => ?_
    rw [← onByte_ordinary hroom hb]
    exact onByte_lbWritten_other b s hoff

/-- The partial text has become the message of the buffer that is no longer active; the active one is empty (R93). -/
theorem terminatorPath_framed {b : Byte} {s : State} (hs : Framed s) (hroom : s.sli.writeOffset + 2 < s.cfg.capacity)
    (hb : b ∈ s.cfg.terminators) : Framed (terminatorPath b s) where
  ranges :=
    { offset := by
        rw [terminatorPath_cfg]
        exact Nat.le_of_lt (Nat.lt_of_le_of_lt (Nat.le_add_left 2 _) hroom)
      lengths := fun k => by
        rw [terminatorPath_completedLength, terminatorPath_cfg]
        split_ifs
        · exact .inr (.inr ⟨Nat.le_add_left 3 _, hroom⟩)
        · exact hs.ranges.lengths k }
  partialText off hoff := absurd hoff (Nat.not_lt_zero off)
  completed _ := by
    rw [terminatorPath_activeIndex, Buf.other_other, terminatorPath_completedLength_active]
    exact terminatorPath_messageAt hs hroom hb

/-- The marker says that the other buffer holds no message, and the active one is empty (R94). -/
theorem overlongPath_framed {s : State} (hs : Framed s) : Framed (overlongPath s) where
  ranges :=
    { offset := by
        rw [overlongPath_cfg]
        exact (Nat.le_add_left 2 _).trans hs.ranges.offset
      lengths := fun k => by
        rw [overlongPath_completedLength, overlongPath_cfg]
        split_ifs
        · exact .inr (.inl rfl)
        · exact hs.ranges.lengths k }
  partialText off hoff := absurd hoff (Nat.not_lt_zero off)
  completed hlen := by
    rw [overlongPath_activeIndex, overlongPath_completedLength_other] at hlen
    omega

theorem onByte_framed {s : State} (hs : Framed s) (b : Byte) : Framed (onByte b s) := by
  by_cases hroom : s.sli.writeOffset + 2 < s.cfg.capacity
  · by_cases hb : b ∈ s.cfg.terminators
    · exact onByte_terminator hroom hb ▸ terminatorPath_framed hs hroom hb
    · exact onByte_ordinary hroom hb ▸ ordinaryPath_framed hs hroom hb
  · exact onByte_overlong (Nat.not_lt.mp hroom) ▸ overlongPath_framed hs

/-- The ready flag has no part in the framing. -/
theorem Framed.of_sli_eq_but_ready {s t : State} (hs : Framed s) (hcfg : t.cfg = s.cfg)
    (hsli : t.sli = { s.sli with messageReady := t.sli.messageReady }) : Framed t := by
  have hactive : t.sli.activeIndex = s.sli.activeIndex := by rw [hsli]
  have hoffset : t.sli.writeOffset = s.sli.writeOffset := by rw [hsli]
  have hlen (k : Buf) : t.completedLength k = s.completedLength k := by cases k <;> simp only [State.completedLength] <;> rw [hsli]
  have hlb (k : Buf) (off : Nat) : t.lbWritten k off = s.lbWritten k off := by rw [State.lbWritten, hsli, hcfg]; rfl
  refine ⟨⟨?_, fun k => ?_⟩, fun off hoff => ?_, fun hlong => ?_⟩
  · rw [hcfg, hoffset]
    exact hs.ranges.offset
  · rw [hcfg, hlen]
    exact hs.ranges.lengths k
  · rw [hcfg, hactive, hlb]
    exact hs.partialText off (hoffset ▸ hoff)
  · rw [hactive, hlen] at hlong ⊢
    exact (hs.completed hlong).of_lbWritten_eq hcfg hlong (hs.ranges.length_le hlong) fun off _ => hlb _ off

/-- Only SLI.INIT and SLI.BYTE write what the invariant speaks of. -/
theorem Effect.framed {s u : State} {i : Instr} (h : Effect s i u) (hc : 3 ≤ s.cfg.capacity) (hs : Framed s) : Framed u := by
  cases h with
  | lineInitialised => exact framed_of_empty hc rfl fun k => by cases k <;> rfl
  | byteReceived b => exact onByte_eq b s ▸ onByte_framed hs b
  | _ => exact hs.of_sli_eq_but_ready rfl rfl

/-- Settles O28, by the effect of each command; a step that goes on has a configuration in range. -/
theorem framingKept : Obligations.FramingKept := by
  intro s t hs h
  have hc : 3 ≤ s.cfg.capacity := (step_next_cases h).1.1
  refine (step_keeps (P := fun s => 3 ≤ s.cfg.capacity ∧ Framed s) (fun hcfg hsli _ hs => ?_) (fun heff hs => ?_) h ⟨hc, hs⟩).2
  · obtain ⟨hc, hframed⟩ := hs
    exact ⟨hcfg ▸ hc, hframed.of_sli_eq_but_ready hcfg (by rw [hsli])⟩
  · obtain ⟨hc, hframed⟩ := hs
    exact ⟨heff.cfg_eq ▸ hc, heff.framed hc hframed⟩

/-! #### The commands (R90 to R99) -/

/-- The `ra` field of an OK response (30_encoding.md R73). -/
theorem okWord_raField (ra : Byte) (rx : Half) : ((okWord ra rx >>> 16) &&& 0xFF#32).toNat = ra.toNat := by
  have hra := ra.isLt
  have hrx := rx.isLt
  rw [BitVec.toNat_and, BitVec.toNat_ushiftRight, okWord_toNat, Nat.shiftRight_eq_div_pow]
  rw [show (0xFF#32).toNat = 2 ^ 8 - 1 from rfl, Nat.and_two_pow_sub_one_eq_mod]
  omega

/-- Settles O23: `onByte_lbWritten_other`, and the index in the answer of SLI.TAKE, 0 or 1, is that of the other buffer. -/
theorem doubleBufferExclusive : Obligations.DoubleBufferExclusive := by
  refine ⟨fun s t b h off hoff => ?_, fun s t h => ?_⟩
  · obtain ⟨-, rfl⟩ := execSliByte_next.mp h
    exact onByte_lbWritten_other b s hoff
  · obtain ⟨-, rfl⟩ := execSliTake_next.mp h
    refine ⟨rfl, ?_⟩
    rw [answer_lastAnswer, okWord_raField, answer_sli, setReady_sli_activeIndex]
    cases s.sli.activeIndex <;> decide

/-- Settles O15: SLI.INIT's word is its encoding, and its next state the one `execSliInit_next` gives. -/
theorem sliInitResult : Obligations.SliInitResult :=
  ⟨decode_encode .sliInit, fun s hp => execSliInit_next.mpr ⟨hp, by rw [← hp]; rfl⟩⟩

/-- Settles O16, by `onByte_ordinary`. -/
theorem sliByteOrdinaryPath : Obligations.SliByteOrdinaryPath := by
  intro s b hp hroom hb
  refine ⟨(ordinaryPath b s).answer (okWord 0#8 0#16), ?_, ?_, hroom, fun addr => ?_⟩
  · exact execSliByte_next.mpr ⟨hp, by rw [onByte_ordinary hroom hb]⟩
  · rw [← hp]; rfl
  · exact Memory.read_write _ _ addr b

/-- Settles O17: the frame is `terminatorPath_eq`, the stored bytes are `terminatorPath_read`. -/
theorem sliByteTerminatorPath : Obligations.SliByteTerminatorPath := by
  intro s b hp hroom hb
  refine ⟨(terminatorPath b s).answer (okWord 0#8 0#16), ?_, ?_, ?_, hroom, ?_, ?_⟩
  · exact execSliByte_next.mpr ⟨hp, by rw [onByte_terminator hroom hb]⟩
  · rw [← hp]
    exact congrArg (State.answer (okWord 0#8 0#16)) (terminatorPath_eq b s)
  · exact terminatorPath_completedLength_active b s
  · exact (terminatorPath_completedLength b s _).trans (if_neg (Buf.other_ne _))
  · exact terminatorPath_read b s

/-- Settles O18: the frame is `overlongPath_eq`. -/
theorem sliByteOverlongPath : Obligations.SliByteOverlongPath := by
  intro s b hp hfull
  refine ⟨(overlongPath s).answer (okWord 0#8 0#16), ?_, ?_, overlongPath_completedLength_other s,
    overlongPath_completedLength_active s⟩
  · exact execSliByte_next.mpr ⟨hp, by rw [onByte_overlong hfull]⟩
  · rw [← hp]
    exact congrArg (State.answer (okWord 0#8 0#16)) (overlongPath_eq s)

/-- Settles O19, by `execSliHas_next`. -/
theorem sliHasResult : Obligations.SliHasResult :=
  ⟨decode_encode .sliHas, fun s hp => execSliHas_next.mpr ⟨hp, by rw [← hp]; rfl⟩⟩

/-- Settles O20: what the answer is made of, the buffers and their lengths, a take leaves as it is. -/
theorem sliTakeResult : Obligations.SliTakeResult := by
  refine ⟨decode_encode .sliTake, fun s hp => ⟨_, execSliTake_next.mpr ⟨hp, rfl⟩, ?_, ?_⟩⟩
  · rw [← hp, Buf.other_index]; rfl
  · refine ⟨_, execSliTake_next.mpr ⟨hp, rfl⟩, rfl, ?_⟩
    rw [answer_lastAnswer, answer_lastAnswer]
    simp

/-- Settles O21, by `execSliRead_eq_badIndex` and `execSliRead_next`. -/
theorem sliReadResult : Obligations.SliReadResult := by
  refine ⟨fun k off => decode_encode (.sliRead k off), fun s k off hp hout => ?_, fun s k off buf hp hk hoff => ?_⟩
  · refine (execSliRead_eq_badIndex hp).mpr ?_
    simp only [Instr.WellFormed, Bool.and_eq_false_iff, decide_eq_false_iff_not]
    omega
  · exact execSliRead_next.mpr ⟨hp, buf, hk, hoff, by rw [← hp]; rfl⟩

/-- Settles O22, by `execSliReset_next`. -/
theorem sliResetResult : Obligations.SliResetResult := by
  refine ⟨decode_encode .sliReset, fun s hp => execSliReset_next.mpr ⟨hp, ?_⟩⟩
  rw [← hp]
  simp [State.answer, State.emit, State.setReady]

/-! #### Lines, byte by byte (R101, R102, R104) -/

/-- What the bytes of a line do to SerialLineIntake, one after the other. -/
def onBytes (bytes : List Byte) (s : State) : State := bytes.foldl (fun u b => onByte b u) s

theorem onBytes_append (bytes bytes' : List Byte) (s : State) :
    onBytes (bytes ++ bytes') s = onBytes bytes' (onBytes bytes s) := List.foldl_append

theorem onBytes_snoc (bytes : List Byte) (b : Byte) (s : State) : onBytes (bytes ++ [b]) s = onByte b (onBytes bytes s) :=
  onBytes_append bytes [b] s

/-- SLI.BYTE reads neither the inbox nor the answers. -/
theorem onByte_replaceIo (b : Byte) (s : State) (p : Port) (inbox : List Input) (answers : List (Port × Word)) :
    onByte b { s with port := p, inbox := inbox, answers := answers } =
      { onByte b s with port := p, inbox := inbox, answers := answers } := by
  simp only [onByte]
  split_ifs
  · simp only [terminatorPath]
    cases s.sli.activeIndex <;> rfl
  · rfl
  · simp only [overlongPath]
    cases s.sli.activeIndex <;> rfl

theorem onBytes_replaceIo (bytes : List Byte) (s : State) (p : Port) (inbox : List Input) (answers : List (Port × Word)) :
    onBytes bytes { s with port := p, inbox := inbox, answers := answers } =
      { onBytes bytes s with port := p, inbox := inbox, answers := answers } := by
  induction bytes generalizing s with
  | nil => rfl
  | cons b bytes ih =>
    calc onBytes bytes (onByte b { s with port := p, inbox := inbox, answers := answers })
      _ = onBytes bytes { onByte b s with port := p, inbox := inbox, answers := answers } := by rw [onByte_replaceIo]
      _ = { onBytes bytes (onByte b s) with port := p, inbox := inbox, answers := answers } := ih _

theorem onBytes_eq (bytes : List Byte) (s : State) : onBytes bytes s = { s with sli := (onBytes bytes s).sli } := by
  induction bytes generalizing s with
  | nil => rfl
  | cons b bytes ih =>
    change onBytes bytes (onByte b s) = { s with sli := (onBytes bytes (onByte b s)).sli }
    rw [ih, onByte_eq]

@[simp] theorem onBytes_cfg (bytes : List Byte) (s : State) : (onBytes bytes s).cfg = s.cfg := by rw [onBytes_eq]
@[simp] theorem onBytes_fp (bytes : List Byte) (s : State) : (onBytes bytes s).fp = s.fp := by rw [onBytes_eq]
@[simp] theorem onBytes_radioOpen (bytes : List Byte) (s : State) : (onBytes bytes s).radioOpen = s.radioOpen := by
  rw [onBytes_eq]

/-- A command that arrives on its own port runs, if it has a move (30_encoding.md R77). -/
theorem step_inputOf {s : State} {i : Instr} {rest : List Input} (hc : s.cfg.WellFormed) (hinbox : s.inbox = inputOf i :: rest)
    (hmove : ¬(i.port = .pf ∧ s.radioOpen = true)) : step s = settle i (exec i { s with port := i.port, inbox := rest }) :=
  step_command hc hinbox hmove (decode_encode i)

theorem step_sliByte {s : State} {b : Byte} {rest : List Input} (hc : s.cfg.WellFormed)
    (hinbox : s.inbox = inputOf (.sliByte b) :: rest) :
    step s = .next { onByte b s with port := .pu, inbox := rest, answers := s.answers ++ [(.pu, okWord 0#8 0#16)] } := by
  have hexec : exec (.sliByte b) { s with port := .pu, inbox := rest } = .next { onByte b s with
      port := .pu, inbox := rest, answers := s.answers ++ [(.pu, okWord 0#8 0#16)] } :=
    execSliByte_next.mpr ⟨rfl, by rw [onByte_replaceIo b s .pu rest s.answers]; rfl⟩
  rw [step_inputOf hc hinbox (by simp [Instr.port])]
  exact congrArg (settle (.sliByte b)) hexec

/-- Bytes that arrive on PU are taken up one by one, and each is answered OK. -/
theorem run_lineInputs {bytes : List Byte} {s : State} {rest : List Input} (hc : s.cfg.WellFormed)
    (hinbox : s.inbox = lineInputs bytes ++ rest) :
    ∃ p, run bytes.length s = .next { onBytes bytes s with
      port := p, inbox := rest, answers := s.answers ++ List.replicate bytes.length (.pu, okWord 0#8 0#16) } := by
  induction bytes generalizing s with
  | nil => exact ⟨s.port, by simp [run, onBytes, ← show s.inbox = rest from hinbox]⟩
  | cons b bytes ih =>
    have hstep := step_sliByte (rest := lineInputs bytes ++ rest) hc hinbox
    obtain ⟨p, hrun⟩ := ih (s := { onByte b s with
      port := .pu, inbox := lineInputs bytes ++ rest, answers := s.answers ++ [(.pu, okWord 0#8 0#16)] })
      (by rw [onByte_eq]; exact hc) rfl
    have hall := (run_step hstep).trans hrun
    rw [onBytes_replaceIo, List.append_assoc] at hall
    exact ⟨p, hall⟩

/-- `u` is `s`, at offset 0 of its active buffer, after the bytes `text`, none of them a terminator, all of them with room (R92). -/
structure TextReceived (s u : State) (text : List Byte) : Prop where
  activeIndex : u.sli.activeIndex = s.sli.activeIndex
  writeOffset : u.sli.writeOffset = text.length
  messageReady : u.sli.messageReady = s.sli.messageReady
  completedLength : ∀ k, u.completedLength k = s.completedLength k
  stored : ∀ off (h : off < text.length), u.lbWritten s.sli.activeIndex off = some text[off]
  other : ∀ off, off < s.cfg.capacity → u.lbWritten s.sli.activeIndex.other off = s.lbWritten s.sli.activeIndex.other off

/-- One more byte of the text stands behind those received before (R92). -/
theorem TextReceived.append_singleton {s u : State} {text : List Byte} {b : Byte} (h : TextReceived s u text) (hcfg : u.cfg = s.cfg)
    (hroom : text.length + 2 < s.cfg.capacity) (hb : b ∉ s.cfg.terminators) : TextReceived s (onByte b u) (text ++ [b]) := by
  have hroom' : u.sli.writeOffset + 2 < u.cfg.capacity := by rwa [h.writeOffset, hcfg]
  have hread (k : Buf) {off : Nat} (hoff : off < s.cfg.capacity) := ordinaryPath_lbWritten b u hroom' k (hcfg ▸ hoff)
  rw [h.activeIndex, h.writeOffset] at hread
  rw [onByte_ordinary hroom' (hcfg ▸ hb)]
  exact
    { activeIndex := h.activeIndex
      writeOffset := by rw [List.length_append, ← h.writeOffset]; rfl
      messageReady := h.messageReady
      completedLength := fun k => by simp [ordinaryPath, h.completedLength]
      stored := fun off hoff => by
        rw [List.length_append, List.length_singleton] at hoff
        rw [hread _ (by omega)]
        obtain rfl | hold := eq_or_ne off text.length
        · simp
        · rw [if_neg fun hnew => hold hnew.2, h.stored off (by omega), List.getElem_append_left]
      other := fun off hoff => by
        rw [hread _ hoff, if_neg fun hnew => Buf.other_ne _ hnew.1, h.other off hoff] }

theorem onBytes_text {s : State} {text : List Byte} (hoffset : s.sli.writeOffset = 0) (htext : ∀ b ∈ text, b ∉ s.cfg.terminators)
    (hfit : text.length + 2 ≤ s.cfg.capacity) : TextReceived s (onBytes text s) text := by
  induction text using List.reverseRecOn with
  | nil => exact ⟨rfl, hoffset, rfl, fun _ => rfl, fun off h => absurd h (Nat.not_lt_zero off), fun _ _ => rfl⟩
  | append_singleton text b ih =>
    rw [List.length_append, List.length_singleton] at hfit
    have hbefore := ih (fun c hc => htext c (List.mem_append_left _ hc)) (by omega)
    rw [onBytes_snoc]
    exact hbefore.append_singleton (onBytes_cfg text s) (by omega) (htext b (by simp))

/-- `t` is `s`, at offset 0 of its active buffer `k`, after a line `text` and its terminator (R92, R93, R103). -/
structure LineReceived (s t : State) (k : Buf) (text : List Byte) (term : Byte) : Prop where
  activeIndex : t.sli.activeIndex = k.other
  writeOffset : t.sli.writeOffset = 0
  messageReady : t.sli.messageReady = true
  completedLength : t.completedLength k = text.length + 3
  stored : ∀ off (h : off < text.length), t.lbWritten k off = some text[off]
  terminator : t.lbWritten k text.length = some term
  trailer1 : t.lbWritten k (text.length + 1) = some 0x00#8
  trailer2 : t.lbWritten k (text.length + 2) = some 0x00#8
  other : ∀ off, off < s.cfg.capacity → t.lbWritten k.other off = s.lbWritten k.other off

theorem onBytes_line {s : State} {k : Buf} {text : List Byte} {term : Byte} (hk : s.sli.activeIndex = k)
    (hoffset : s.sli.writeOffset = 0) (htext : ∀ b ∈ text, b ∉ s.cfg.terminators) (hterm : term ∈ s.cfg.terminators)
    (hfit : text.length + 3 ≤ s.cfg.capacity) : LineReceived s (onBytes (text ++ [term]) s) k text term := by
  have htextReceived := onBytes_text hoffset htext (by omega)
  have hcfg : (onBytes text s).cfg = s.cfg := onBytes_cfg text s
  rw [onBytes_snoc]
  generalize onBytes text s = u at htextReceived hcfg ⊢
  obtain ⟨hactive, hend, -, -, hstored, hother⟩ := htextReceived
  rw [hk] at hactive hstored hother
  have hroom : u.sli.writeOffset + 2 < u.cfg.capacity := by rw [hcfg, hend]; exact hfit
  have hread (off : Nat) (hoff : off < s.cfg.capacity) := terminatorPath_lbWritten term u hroom k (hcfg ▸ hoff)
  rw [onByte_terminator hroom (hcfg ▸ hterm)]
  exact
    { activeIndex := by rw [terminatorPath_activeIndex, hactive]
      writeOffset := rfl
      messageReady := rfl
      completedLength := by rw [← hactive, terminatorPath_completedLength_active, hend]
      stored := fun off hoff => by
        rw [hread off (by omega), if_neg (by omega), if_neg (by omega), hstored off hoff]
      terminator := by rw [hread _ (by omega)]; simp [hactive, hend]
      trailer1 := by rw [hread _ (by omega)]; simp [hactive, hend]
      trailer2 := by rw [hread _ (by omega)]; simp [hactive, hend]
      other := fun off hoff => by
        rw [terminatorPath_lbWritten term u hroom _ (hcfg ▸ hoff)]
        simp [hactive, Buf.other_ne, hother off hoff] }

/-- Settles O24: `run_lineInputs` takes the line up, and `onBytes_line` is what it does. -/
theorem lineCompletesMessage : Obligations.LineCompletesMessage := by
  intro s text term rest hc hoffset htext hterm hfit hinbox
  obtain ⟨p, hrun⟩ := run_lineInputs hc hinbox
  rw [List.length_append, List.length_singleton] at hrun
  have hline := onBytes_line rfl hoffset htext hterm hfit
  exact ⟨_, hrun, rfl, onBytes_fp _ s, hline.activeIndex, hline.writeOffset, hline.messageReady, hline.completedLength, hline.stored,
    hline.terminator, hline.trailer1, hline.trailer2, hline.other, rfl⟩

theorem lineInputs_append (bytes bytes' : List Byte) :
    lineInputs (bytes ++ bytes') = lineInputs bytes ++ lineInputs bytes' := List.map_append

/-- SLI.TAKE outside a radio handler invocation (R97). -/
theorem step_sliTake {s : State} {rest : List Input} (hc : s.cfg.WellFormed) (hinbox : s.inbox = inputOf .sliTake :: rest)
    (hopen : s.radioOpen = false) :
    step s = .next (((State.setReady false { s with port := .pf, inbox := rest }).answer
      (okWord (zext8 s.sli.activeIndex.other.index) (zext16 (s.completedLength s.sli.activeIndex.other))))) := by
  rw [step_inputOf hc hinbox (by simp [hopen])]
  exact congrArg (settle .sliTake) (execSliTake_next.mpr ⟨rfl, rfl⟩)

/-- Settles O25: the second line finds the buffers flipped, and flips them back. -/
theorem secondLineOverwritesFirst : Obligations.SecondLineOverwritesFirst := by
  intro s line1 line2 term1 term2 rest hc hopen hoffset htext1 hterm1 hfit1 htext2 hterm2 hfit2 hinbox
  rw [← List.append_assoc, ← lineInputs_append] at hinbox
  obtain ⟨p, hrun⟩ := run_lineInputs hc hinbox
  simp only [List.length_append, List.length_singleton] at hrun
  have hfirst := onBytes_line rfl hoffset htext1 hterm1 hfit1
  have hsecond := onBytes_line (s := onBytes (line1 ++ [term1]) s) hfirst.activeIndex hfirst.writeOffset
    (by rwa [onBytes_cfg]) (by rwa [onBytes_cfg]) (by rwa [onBytes_cfg])
  rw [← onBytes_append] at hsecond
  have hactive := hsecond.activeIndex
  rw [Buf.other_other] at hactive
  refine ⟨_, (run_add hrun).trans (run_one (step_sliTake ?_ rfl ?_)), ?_, hactive, rfl, hsecond.stored, hsecond.terminator⟩
  · rwa [onBytes_cfg]
  · rwa [onBytes_radioOpen]
  · rw [answer_lastAnswer]
    change okWord (zext8 (onBytes _ s).sli.activeIndex.other.index)
      (zext16 ((onBytes _ s).completedLength (onBytes _ s).sli.activeIndex.other)) = _
    rw [hactive, hsecond.completedLength, Buf.other_index]
    rfl

/-- Settles O26: `onBytes_text` fills the buffer up to the room of terminator and trailer. -/
theorem overlongAfterCapacity : Obligations.OverlongAfterCapacity := by
  intro s text b rest hc hoffset htext hfit hinbox
  obtain ⟨p, hlast⟩ := run_lineInputs hc hinbox
  rw [lineInputs_append, List.append_assoc] at hinbox
  obtain ⟨q, hfull⟩ := run_lineInputs hc hinbox
  obtain ⟨hactive, hend, hready, hlen, hstored, -⟩ := onBytes_text hoffset htext hfit.le
  have hroom : (onBytes text s).sli.writeOffset + 2 = s.cfg.capacity := by rw [hend]; exact hfit
  rw [List.length_append, List.length_singleton, onBytes_snoc, onByte_overlong (by rw [onBytes_cfg, hroom])] at hlast
  refine ⟨_, _, hfull, hlast, hready, hroom, hstored, rfl, overlongPath_lb _, (overlongPath_activeIndex _).trans hactive, rfl, rfl,
    ?_, ?_⟩
  · exact hactive ▸ overlongPath_completedLength_other (onBytes text s)
  · exact (hactive ▸ overlongPath_completedLength_active (onBytes text s)).trans (hlen _)

end Sys2Proof.Machine

/-! ### FramePool (41_frame_pool.md R110 to R127): the pool's invariants, the commands, whole frames -/

namespace Sys2Proof.Machine

/-! #### The ring of slots (R122, 20_memory.md R60) -/

theorem nextSlot_ring (cfg : Config) (i j : Nat) : nextSlot cfg ((i + j) % cfg.slots) = (i + (j + 1)) % cfg.slots :=
  Nat.mod_add_mod (i + j) cfg.slots 1

theorem ring_nextSlot (cfg : Config) (i j : Nat) : (nextSlot cfg i + j) % cfg.slots = (i + (j + 1)) % cfg.slots := by
  rw [nextSlot, Nat.mod_add_mod, Nat.add_assoc, Nat.add_comm 1]

/-- A cursor that is a slot wraps at N. -/
theorem nextSlot_eq_wrap {cfg : Config} {i : Nat} (hi : i < cfg.slots) :
    nextSlot cfg i = if i + 1 = cfg.slots then 0 else i + 1 := by
  unfold nextSlot
  split_ifs with hlast
  · rw [hlast, Nat.mod_self]
  · exact Nat.mod_eq_of_lt (by omega)

theorem PoolOk.head_lt {s : State} (hs : PoolOk s) : s.fp.head < s.cfg.slots := by
  rw [hs.head]
  exact Nat.mod_lt _ hs.slots

/-- A committed frame stands behind the window. -/
theorem window_advanceHead {s : State} (hs : PoolOk s) : (advanceHead s).window = s.window ++ [s.fp.head] := by
  rw [hs.head]
  exact (congrArg (List.map _) List.range_succ).trans List.map_append

/-- A released frame stood at the front of the window. -/
theorem window_advanceTail {s : State} (hs : PoolOk s) (hused : s.fp.usedCount ≠ 0) :
    s.window = s.fp.tail :: (advanceTail s).window := by
  obtain ⟨n, hn⟩ := Nat.exists_eq_succ_of_ne_zero hused
  simp only [State.window, advanceTail_fp_usedCount, advanceTail_fp_tail, advanceTail_cfg, hn, List.range_succ_eq_map,
    List.map_cons, List.map_map, Nat.add_zero, Nat.mod_eq_of_lt hs.tail, Nat.succ_eq_add_one, Nat.add_sub_cancel]
  congr 1
  exact List.map_congr_left fun j _ => (ring_nextSlot s.cfg s.fp.tail j).symm

/-! #### The invariants (R114, R123) -/

theorem PoolOk.of_units_eq {s t : State} (hcfg : t.cfg = s.cfg) (hfp : t.fp = s.fp) (hs : PoolOk s) : PoolOk t := by
  obtain ⟨hslots, hconserved, htail, hhead⟩ := hs
  constructor <;> simpa only [hcfg, hfp]

/-- The cursors move with the counters: `head` with a slot that joins the window, `tail` with one that leaves it. -/
theorem Effect.poolOk {s u : State} {i : Instr} (h : Effect s i u) (hs : PoolOk s) : PoolOk u := by
  have hconserved : u.fp.freeCount + u.fp.usedCount = u.cfg.slots := h.countsConserved hs.conserved
  cases h with
  | poolEmptied => exact emptyPool_poolOk hs.slots
  | frameCommitted hhead hfree =>
    refine { hs with conserved := hconserved, head := ?_ }
    change nextSlot s.cfg s.fp.head = (s.fp.tail + (s.fp.usedCount + 1)) % s.cfg.slots
    rw [hs.head, nextSlot_ring]
  | frameReleased hused =>
    refine { hs with conserved := hconserved, tail := Nat.mod_lt _ hs.slots, head := ?_ }
    change s.fp.head = (nextSlot s.cfg s.fp.tail + (s.fp.usedCount - 1)) % s.cfg.slots
    rw [ring_nextSlot, Nat.sub_add_cancel (Nat.pos_of_ne_zero hused), hs.head]
  | _ => exact { hs with }

theorem step_keeps_poolOk {s t : State} (h : step s = .next t) (hs : PoolOk s) : PoolOk t :=
  step_keeps (fun hcfg _ hfp => PoolOk.of_units_eq hcfg hfp) Effect.poolOk h hs

theorem answerFault_cfg (f : Fault) (s : State) : (s.answerFault f).cfg = s.cfg := by
  unfold State.answerFault
  split <;> rfl

theorem answerFault_fp (f : Fault) (s : State) : (s.answerFault f).fp = s.fp := by
  unfold State.answerFault
  split <;> rfl

/-- Settles O43: `emptyPool_poolOk` establishes the invariants, `Effect.poolOk` keeps them, and a FAULT answer touches no unit. -/
theorem poolConserved : Obligations.PoolConserved := by
  refine ⟨fun s t hslots h => ?_, fun s t hs h => step_keeps_poolOk h hs, fun s hs => ?_⟩
  · have ht : t = s.emptyPool.answer (okWord 0#8 0#16) := by
      obtain h | h := h
      · exact (execFpInit_next.mp h).2
      · exact (execFpReset_next.mp h).2
    rw [ht]
    exact { emptyPool_poolOk hslots with }
  · rw [advance]
    match h : step s with
    | .next t => exact step_keeps_poolOk h hs
    | .fault f => exact hs.of_units_eq (answerFault_cfg f s) (answerFault_fp f s)
    | .refused r => exact hs

/-- A slot joins the window only by a commit that stores verdict 1 in it (R114). -/
theorem Effect.mem_window_cases {s u : State} {i : Instr} (h : Effect s i u) (hs : PoolOk s) {slot : Nat} (hslot : slot ∈ u.window) :
    slot ∈ s.window ∨ Memory.read u.fp.crcOk slot = some true := by
  cases h with
  | poolEmptied => cases hslot
  | frameCommitted hhead hfree =>
    change slot ∈ (advanceHead s).window at hslot
    rw [window_advanceHead hs, List.mem_append, List.mem_singleton] at hslot
    refine hslot.imp id fun hnew => ?_
    rw [hnew]
    exact Memory.read_write_same s.fp.crcOk s.fp.head true
  | frameReleased hused =>
    rw [window_advanceTail hs hused]
    exact .inl (List.mem_cons_of_mem _ hslot)
  | _ => exact .inl hslot

/-- A slot that stays in the window keeps its verdict, since the slot at `head` is the only one written. -/
theorem Effect.windowCrc {s u : State} {i : Instr} (h : Effect s i u) (hs : PoolOk s) (hcrc : WindowCrc s) : WindowCrc u := by
  intro slot hslot
  obtain hold | hnew := h.mem_window_cases hs hslot
  · obtain ⟨-, -, hkept⟩ := h.slot_eq fun hfree hhead => hs.head_notMem_window hfree (hhead ▸ hold)
    rw [hkept, hcrc slot hold]
  · exact hnew

theorem WindowCrc.of_units_eq {s t : State} (hcfg : t.cfg = s.cfg) (hfp : t.fp = s.fp) (hs : WindowCrc s) : WindowCrc t := by
  simpa only [WindowCrc, State.window, hcfg, hfp] using hs

/-- Settles O44: every effect keeps both invariants of the pool together (`Effect.poolOk`, `Effect.windowCrc`). -/
theorem windowCrcKept : Obligations.WindowCrcKept := by
  intro s t hs hcrc h
  have hboth : PoolOk t ∧ WindowCrc t := step_keeps (P := fun s => PoolOk s ∧ WindowCrc s)
    (fun hcfg _ hfp => And.imp (PoolOk.of_units_eq hcfg hfp) (WindowCrc.of_units_eq hcfg hfp))
    (fun heff ⟨hpool, hold⟩ => ⟨heff.poolOk hpool, heff.windowCrc hpool hold⟩) h ⟨hs, hcrc⟩
  exact hboth.2

/-- Settles O45, by `window_advanceHead` and `window_advanceTail`, which also names the window's first slot. -/
theorem windowIsFifo : Obligations.WindowIsFifo := by
  refine ⟨fun s t hs h => ?_, fun s t hs h => ?_, fun s t hs _ h => ⟨s.fp.tail, ?_, ?_⟩⟩
  · obtain ⟨-, -, -, rfl⟩ := execFpCommit_next.mp h
    exact (window_advanceHead hs :)
  · obtain ⟨-, hused, rfl⟩ := execFpRelease_next.mp h
    exact window_advanceTail hs hused
  · obtain ⟨-, hused, -⟩ := execFpPeek_next.mp h
    rw [window_advanceTail hs hused, List.head?_cons]
  · obtain ⟨-, -, rfl⟩ := execFpPeek_next.mp h
    exact answer_lastAnswer s _

/-! #### The commands (R110 to R121) -/

/-- Settles O30, by `execFpInit_next`; FP.RESET has FP.INIT's meaning. -/
theorem fpInitResult : Obligations.FpInitResult :=
  ⟨decode_encode .fpInit, fun s hp => ⟨execFpInit_next.mpr ⟨hp, by rw [← hp]; rfl⟩, rfl⟩⟩

/-- Settles O31: what FP.RESET writes depends on the parameters only. -/
theorem fpResetResult : Obligations.FpResetResult :=
  ⟨decode_encode .fpReset, fun s hp =>
    ⟨_, execFpReset_next.mpr ⟨hp, rfl⟩, by rw [← hp]; rfl, _, execFpReset_next.mpr ⟨hp, rfl⟩, rfl, rfl, rfl⟩⟩

/-- Settles O32, by `execFpReserve_next`. -/
theorem fpReserveResult : Obligations.FpReserveResult := by
  refine ⟨decode_encode .fpReserve, fun s hp => ⟨fun hfull => ?_, fun hfree => ?_⟩⟩
  · exact execFpReserve_next.mpr ⟨hp, by rw [if_pos hfull, ← hp]; rfl⟩
  · exact execFpReserve_next.mpr ⟨hp, by rw [if_neg hfree, ← hp]; rfl⟩

/-- With no free slot the guard of the commands that write the slot at `head` answers NO_FREE_SLOT, once the operand and `head` name
what exists (60_exceptions.md R152). -/
theorem onHeadSlot_full {ok : Bool} {s : State} (k : Host.Outcome State Fault Refusal) (hok : ok = true)
    (hhead : s.fp.head < s.cfg.slots) (hfull : s.fp.freeCount = 0) : onHeadSlot ok s k = .fault .noFreeSlot := by
  simp [onHeadSlot, inPool, respondFault, hok, hhead, hfull]

/-- Settles O33: the guards are `execFpFillb_eq_badIndex` and `onHeadSlot_full`, the stored byte is `Memory.read_write`. -/
theorem fpFillbResult : Obligations.FpFillbResult := by
  refine ⟨fun v off => decode_encode (.fpFillb v off), fun s v off hp hoff => ?_, fun s v off hp hhead hoff hfull => ?_,
    fun s v off hp hhead hoff hfree => ⟨_, execFpFillb_next.mpr ⟨hp, ⟨hoff, hhead⟩, hfree, rfl⟩, ?_, fun addr => ?_⟩⟩
  · exact (execFpFillb_eq_badIndex hp).mpr (.inl (decide_eq_false (Nat.not_lt.mpr hoff)))
  · exact (onPort_own _ hp).trans (onHeadSlot_full _ (decide_eq_true hoff) hhead hfull)
  · rw [← hp]; rfl
  · exact Memory.read_write s.fp.payload _ addr v

/-- Settles O34: the guards are `execFpSetlen_eq_badIndex` and `onHeadSlot_full`, the stored length is `Memory.read_write`. -/
theorem fpSetlenResult : Obligations.FpSetlenResult := by
  refine ⟨fun len => decode_encode (.fpSetlen len), fun s len hp hlen => ?_, fun s len hp hhead hlen hfull => ?_,
    fun s len hp hhead hlen hfree => ⟨_, execFpSetlen_next.mpr ⟨hp, ⟨hlen, hhead⟩, hfree, rfl⟩, ?_, fun slot => ?_⟩⟩
  · exact (execFpSetlen_eq_badIndex hp).mpr (.inl (decide_eq_false (Nat.not_lt.mpr hlen)))
  · exact (onPort_own _ hp).trans (onHeadSlot_full _ (decide_eq_true hlen) hhead hfull)
  · rw [← hp]; rfl
  · exact Memory.read_write s.fp.length _ slot len

/-- Settles O35: flag 1 moves `head` as `nextSlot_eq_wrap` says, either flag stores the verdict. -/
theorem fpCommitResult : Obligations.FpCommitResult := by
  refine ⟨⟨decode_encode (.fpCommit true), decode_encode (.fpCommit false)⟩, fun s f hp hhead => ⟨fun hfull => ?_, fun hfree =>
    ⟨_, execFpCommit_next.mpr ⟨hp, hhead, hfree, rfl⟩, ?_, fun slot => ?_⟩⟩⟩
  · exact (onPort_own _ hp).trans (onHeadSlot_full _ rfl hhead hfull)
  · rw [← hp, ← nextSlot_eq_wrap hhead]
    cases f <;> rfl
  · cases f <;> exact Memory.read_write s.fp.crcOk _ slot _

/-- Settles O36, the flag 0 of `fpCommitResult`. -/
theorem fpCommitInvalidResult : Obligations.FpCommitInvalidResult := by
  obtain ⟨⟨-, hdecode⟩, hcommit⟩ := fpCommitResult
  exact ⟨hdecode, fun s hp hhead => (hcommit s false hp hhead).2⟩

/-- A pool with a committed frame has one until it is emptied or a frame is released: a commit only adds to `used_count`. -/
theorem Effect.usedCount_ne_zero {s u : State} {i : Instr} (h : Effect s i u) (hs : s.fp.usedCount ≠ 0)
    (hempty : ¬(i = .fpInit ∨ i = .fpReset)) (hrelease : i ≠ .fpRelease) : u.fp.usedCount ≠ 0 := by
  cases h with
  | poolEmptied hi => exact absurd hi hempty
  | frameReleased => exact absurd rfl hrelease
  | frameCommitted => exact Nat.succ_ne_zero _
  | _ => exact hs

/-- Settles O37, by `execFpHasdata_next` and `Effect.usedCount_ne_zero`. -/
theorem fpHasdataResult : Obligations.FpHasdataResult := by
  refine ⟨decode_encode .fpHasdata, fun s t i h hused hrelease hreset hinit => ?_, fun s hp => ?_⟩
  · obtain ⟨u, r, heff, rfl⟩ := exec_effect h
    exact heff.usedCount_ne_zero hused (not_or.mpr ⟨hinit, hreset⟩) hrelease
  · refine execFpHasdata_next.mpr ⟨hp, ?_⟩
    rw [← hp]
    by_cases hused : s.fp.usedCount = 0 <;> simp [hused, flag8, State.answer]

/-- Settles O38, by `execFpPeek_next`. -/
theorem fpPeekResult : Obligations.FpPeekResult := by
  refine ⟨decode_encode .fpPeek, fun s hp => ⟨fun hempty => ?_, fun hused => ?_⟩⟩
  · exact (onPort_own _ hp).trans (if_pos hempty)
  · exact execFpPeek_next.mpr ⟨hp, hused, by rw [← hp]; rfl⟩

/-- Settles O39, by `execFpRdlen_eq_badIndex` and `execFpRdlen_next`. -/
theorem fpRdlenResult : Obligations.FpRdlenResult := by
  refine ⟨fun slot => decode_encode (.fpRdlen slot), fun s slot hp hslot => ?_, fun s slot hp hslot => ?_⟩
  · exact (execFpRdlen_eq_badIndex hp).mpr (decide_eq_false (Nat.not_lt.mpr hslot))
  · exact execFpRdlen_next.mpr ⟨hp, hslot, by rw [← hp]; rfl⟩

/-- Settles O40, by `execFpReadb_eq_badIndex` and `execFpReadb_next`. -/
theorem fpReadbResult : Obligations.FpReadbResult := by
  refine ⟨fun slot off => decode_encode (.fpReadb slot off), fun s slot off hp hout => ?_, fun s slot off hp hslot hoff => ?_⟩
  · refine (execFpReadb_eq_badIndex hp).mpr ?_
    simpa only [Instr.WellFormed, Bool.and_eq_false_iff, decide_eq_false_iff_not, Nat.not_lt] using hout
  · exact execFpReadb_next.mpr ⟨hp, ⟨hslot, hoff⟩, by rw [← hp]; rfl⟩

/-- Settles O41: `tail` moves on as `nextSlot_eq_wrap` says. -/
theorem fpReleaseResult : Obligations.FpReleaseResult := by
  refine ⟨decode_encode .fpRelease, fun s hp htail => ⟨fun hempty => ?_, fun hused => ?_⟩⟩
  · exact (onPort_own _ hp).trans (if_pos hempty)
  · exact execFpRelease_next.mpr ⟨hp, hused, by rw [← hp, ← nextSlot_eq_wrap htail]; rfl⟩

/-- Settles O42, by `execFpOvf_next`. -/
theorem fpOvfResult : Obligations.FpOvfResult :=
  ⟨decode_encode .fpOvf, fun s hp => execFpOvf_next.mpr ⟨hp, by rw [← hp]; rfl⟩⟩

/-! #### Whole frames (R124) -/

theorem okWord_toNat_lt (ra : Byte) (rx : Half) : (okWord ra rx).toNat < 2 ^ 28 := by
  have hra := ra.isLt
  have hrx := rx.isLt
  rw [okWord_toNat]
  omega

/-- What every step keeps, a run keeps. -/
theorem run_keeps {P : State → Prop} (hstep : ∀ {s t : State}, step s = .next t → P s → P t) {n : Nat} {s t : State}
    (h : run n s = .next t) (hs : P s) : P t := by
  induction n generalizing s with
  | zero => cases h; exact hs
  | succ n ih =>
    rw [run_succ] at h
    match hnext : step s with
    | .next u => rw [hnext] at h; exact ih h (hstep hnext hs)
    | .fault f => rw [hnext] at h; cases h
    | .refused r => rw [hnext] at h; cases h

/-- A command of the radio handler that arrives on its port and completes makes the step: no open invocation keeps it back
(60_exceptions.md R144). -/
theorem step_pr_next {s u : State} {i : Instr} {rest : List Input} (hc : s.cfg.WellFormed) (hport : i.port = .pr)
    (hinbox : s.inbox = inputOf i :: rest) (hexec : exec i { s with port := .pr, inbox := rest } = .next u) :
    step s = .next (u.trackRadio i) := by
  rw [step_inputOf hc hinbox (by simp [hport]), hport, hexec, settle]

/-- FP.RESERVE with a free slot opens the invocation (R111). -/
theorem step_fpReserve_free {s : State} {rest : List Input} (hc : s.cfg.WellFormed) (hinbox : s.inbox = inputOf .fpReserve :: rest)
    (hfree : s.fp.freeCount ≠ 0) :
    step s = .next (State.answer (okWord (zext8 s.fp.head) 0#16) { s with port := .pr, inbox := rest, radioOpen := true }) := by
  rw [step_pr_next hc rfl hinbox (execFpReserve_next.mpr ⟨rfl, (if_neg hfree).symm⟩)]
  simp [State.trackRadio, State.answer, hfree]

/-- FP.COMMIT 1 on its port, with a free slot (R114). -/
theorem step_fpCommit_true {s : State} {rest : List Input} (hc : s.cfg.WellFormed)
    (hinbox : s.inbox = inputOf (.fpCommit true) :: rest) (hhead : s.fp.head < s.cfg.slots) (hfree : s.fp.freeCount ≠ 0) :
    step s = .next ((advanceHead (State.crcWrite { s with port := .pr, inbox := rest, radioOpen := false } s.fp.head true)).answer
      (okWord 0#8 0#16)) :=
  step_pr_next hc rfl hinbox (execFpCommit_next.mpr ⟨rfl, hhead, hfree, rfl⟩)

/-- `u` is `s` after `n` frames were reserved and committed, every command answered OK (R111, R114). -/
structure FramesCommitted (s u : State) (n : Nat) : Prop where
  cfg : u.cfg = s.cfg
  tail : u.fp.tail = s.fp.tail
  usedCount : u.fp.usedCount = s.fp.usedCount + n
  overflow : u.fp.overflow = s.fp.overflow
  answers : ∃ l, u.answers = s.answers ++ l ∧ ∀ a ∈ l, a.2.toNat < 2 ^ 28

theorem FramesCommitted.refl (s : State) : FramesCommitted s s 0 :=
  ⟨rfl, rfl, rfl, rfl, [], by simp, by simp⟩

theorem FramesCommitted.trans {s u t : State} {m n : Nat} (h : FramesCommitted s u m) (h' : FramesCommitted u t n) :
    FramesCommitted s t (m + n) where
  cfg := h'.cfg.trans h.cfg
  tail := h'.tail.trans h.tail
  usedCount := by rw [h'.usedCount, h.usedCount, Nat.add_assoc]
  overflow := h'.overflow.trans h.overflow
  answers := by
    obtain ⟨l, hl, hok⟩ := h.answers
    obtain ⟨l', hl', hok'⟩ := h'.answers
    exact ⟨l ++ l', by rw [hl', hl, List.append_assoc], List.forall_mem_append.mpr ⟨hok, hok'⟩⟩

/-- While a slot is free, a reserve and a commit with verdict 1 put one frame into the pool. -/
theorem run_frame {s : State} {rest : List Input} (hc : s.cfg.WellFormed) (hs : PoolOk s) (hroom : s.fp.usedCount < s.cfg.slots)
    (hinbox : s.inbox = inputOf .fpReserve :: inputOf (.fpCommit true) :: rest) :
    ∃ t, run 2 s = .next t ∧ t.inbox = rest ∧ FramesCommitted s t 1 := by
  have hfree : s.fp.freeCount ≠ 0 := by have := hs.conserved; omega
  refine ⟨_, (run_step (step_fpReserve_free hc hinbox hfree)).trans (run_one (step_fpCommit_true hc rfl hs.head_lt hfree)), rfl,
    rfl, rfl, rfl, rfl, [_, _], List.append_assoc _ [_] [_], ?_⟩
  simpa using ⟨okWord_toNat_lt _ _, okWord_toNat_lt _ _⟩

/-- As many frames as have room are put into the pool one by one. -/
theorem run_frames {n : Nat} {s : State} {rest : List Input} (hc : s.cfg.WellFormed) (hs : PoolOk s)
    (hroom : s.fp.usedCount + n ≤ s.cfg.slots)
    (hinbox : s.inbox = (List.replicate n [inputOf .fpReserve, inputOf (.fpCommit true)]).flatten ++ rest) :
    ∃ u, run (2 * n) s = .next u ∧ u.inbox = rest ∧ FramesCommitted s u n := by
  induction n generalizing s with
  | zero => exact ⟨s, rfl, hinbox, .refl s⟩
  | succ n ih =>
    obtain ⟨t, hfirst, hnext, hframe⟩ := run_frame hc hs (by omega) hinbox
    obtain ⟨u, hothers, hrest, hframes⟩ := ih (hframe.cfg ▸ hc) (run_keeps step_keeps_poolOk hfirst hs)
      (by rw [hframe.cfg, hframe.usedCount]; omega) hnext
    rw [Nat.mul_succ, Nat.add_comm, Nat.add_comm n 1]
    exact ⟨u, (run_add hfirst).trans hothers, hrest, hframe.trans hframes⟩

/-- Settles O47: N frames fill the pool (`run_frames`), where `head` has gone round the ring to `tail`; the next reserve finds no
free slot. -/
theorem overflowAfterCapacityCommits : Obligations.OverflowAfterCapacityCommits := by
  intro s rest hc hs hempty hinbox
  obtain ⟨u, hrun, hnext, hcfg, htail, hused, hoverflow, l, hanswers, hok⟩ := run_frames hc hs (by omega) hinbox
  have hu : PoolOk u := run_keeps step_keeps_poolOk hrun hs
  rw [hempty, Nat.zero_add] at hused
  have hfull : u.fp.freeCount = 0 := by
    have hsum := hu.conserved
    rw [hused, hcfg] at hsum
    omega
  have hhead : u.fp.head = s.fp.head := by
    rw [hu.head, hs.head, htail, hused, hcfg, hempty, Nat.add_mod_right, Nat.add_zero]
  have hreserve := step_pr_next (hcfg ▸ hc) rfl hnext (execFpReserve_next.mpr ⟨rfl, (if_pos hfull).symm⟩)
  refine ⟨u, _, hrun, (run_add hrun).trans (run_one hreserve), hfull, hused, hhead, hoverflow, ?_, rfl, ?_, rfl⟩
  · rw [hanswers, List.drop_left]
    exact hok
  · exact answer_lastAnswer _ noneWord

end Sys2Proof.Machine

/-! ### Exceptions (60_exceptions.md R140 to R162): the causes of a FAULT, a correct host and its coordinator, nested handlers -/

namespace Sys2Proof.Machine

/-! #### The causes of a FAULT (R141, R150 to R152) -/

theorem port_eq_pu_iff {i : Instr} : i.port = .pu ↔ ∃ b, i = .sliByte b := by
  cases i <;> simp [Instr.port]

theorem port_eq_pr_iff {i : Instr} : i.port = .pr ↔
    i = .fpReserve ∨ (∃ v off, i = .fpFillb v off) ∨ (∃ len, i = .fpSetlen len) ∨ ∃ f, i = .fpCommit f := by
  cases i <;> simp [Instr.port]

theorem writesHeadSlot_iff {i : Instr} : writesHeadSlot i = true ↔
    (∃ v off, i = .fpFillb v off) ∨ (∃ len, i = .fpSetlen len) ∨ ∃ f, i = .fpCommit f := by
  cases i <;> simp [writesHeadSlot]

/-- Every meaning starts with the permission check of its own port (30_encoding.md R77). -/
theorem exec_wrongPort {i : Instr} {s : State} (hport : s.port ≠ i.port) : exec i s = .fault .wrongPort := by
  cases i <;> exact onPort_other _ hport

/-- Settles O10: the table of R141 is `Instr.port`, and `exec_wrongPort` is the answer elsewhere. -/
theorem wrongPortFaults : Obligations.WrongPortFaults :=
  ⟨fun _ => ⟨port_eq_pu_iff, port_eq_pr_iff⟩, fun _ _ => exec_wrongPort⟩

theorem exec_fpPeek_empty {s : State} (hport : s.port = .pf) (hempty : s.fp.usedCount = 0) :
    exec .fpPeek s = .fault .peekEmpty := (onPort_own _ hport).trans (if_pos hempty)

theorem exec_fpRelease_empty {s : State} (hport : s.port = .pf) (hempty : s.fp.usedCount = 0) :
    exec .fpRelease s = .fault .releaseEmpty := (onPort_own _ hport).trans (if_pos hempty)

/-- A command that writes the slot at `head` finds none free, once its operand and `head` name what exists (R152). -/
theorem exec_noFreeSlot {i : Instr} {s : State} (hi : writesHeadSlot i = true) (hport : s.port = i.port)
    (hoperands : i.WellFormed s.cfg = true) (hhead : s.fp.head < s.cfg.slots) (hfull : s.fp.freeCount = 0) :
    exec i s = .fault .noFreeSlot := by
  cases i with
  | fpFillb | fpSetlen | fpCommit => exact (onPort_own _ hport).trans (onHeadSlot_full _ hoperands hhead hfull)
  | _ => cases hi

/-- Settles O12, by the lemmas on an empty and on a full pool. -/
theorem stateDependentFaults : Obligations.StateDependentFaults :=
  ⟨fun _ hport hempty => ⟨exec_fpPeek_empty hport hempty, exec_fpRelease_empty hport hempty⟩, fun _ hport hhead hfull =>
    ⟨fun _ => exec_noFreeSlot rfl hport rfl hhead hfull,
      fun _ _ hoff => exec_noFreeSlot rfl hport (decide_eq_true hoff) hhead hfull,
      fun _ hlen => exec_noFreeSlot rfl hport (decide_eq_true hlen) hhead hfull⟩⟩

/-- The commands that ask for a committed frame (41_frame_pool.md R116, R119). -/
def needsFrame : Instr → Bool
  | .fpPeek | .fpRelease => true
  | _ => false

/-- Everything the meaning of a command checks before it acts. -/
structure GuardsMet (i : Instr) (s : State) : Prop where
  port : s.port = i.port
  operands : i.WellFormed s.cfg = true
  slot : writesHeadSlot i = true → s.fp.head < s.cfg.slots ∧ s.fp.freeCount ≠ 0
  frame : needsFrame i = true → s.fp.usedCount ≠ 0

theorem GuardsMet.exec_next {i : Instr} {s : State} (h : GuardsMet i s) : ∃ t, exec i s = .next t := by
  obtain ⟨hport, hoperands, hslot, hframe⟩ := h
  cases i with
  | sliInit => exact ⟨_, execSliInit_next.mpr ⟨hport, rfl⟩⟩
  | sliByte b => exact ⟨_, execSliByte_next.mpr ⟨hport, rfl⟩⟩
  | sliHas => exact ⟨_, execSliHas_next.mpr ⟨hport, rfl⟩⟩
  | sliTake => exact ⟨_, execSliTake_next.mpr ⟨hport, rfl⟩⟩
  | sliRead k off =>
    simp only [Instr.WellFormed, Bool.and_eq_true, decide_eq_true_eq] at hoperands
    obtain ⟨hk, hoff⟩ := hoperands
    obtain ⟨buf, hbuf⟩ : ∃ buf : Buf, k.toNat = buf.index := by
      obtain h0 | h1 := Nat.le_one_iff_eq_zero_or_eq_one.mp hk
      · exact ⟨.b0, h0⟩
      · exact ⟨.b1, h1⟩
    exact ⟨_, execSliRead_next.mpr ⟨hport, buf, hbuf, hoff, rfl⟩⟩
  | sliReset => exact ⟨_, execSliReset_next.mpr ⟨hport, rfl⟩⟩
  | fpInit => exact ⟨_, execFpInit_next.mpr ⟨hport, rfl⟩⟩
  | fpReserve => exact ⟨_, execFpReserve_next.mpr ⟨hport, rfl⟩⟩
  | fpFillb v off =>
    obtain ⟨hhead, hfree⟩ := hslot rfl
    exact ⟨_, execFpFillb_next.mpr ⟨hport, ⟨of_decide_eq_true hoperands, hhead⟩, hfree, rfl⟩⟩
  | fpSetlen len =>
    obtain ⟨hhead, hfree⟩ := hslot rfl
    exact ⟨_, execFpSetlen_next.mpr ⟨hport, ⟨of_decide_eq_true hoperands, hhead⟩, hfree, rfl⟩⟩
  | fpCommit f =>
    obtain ⟨hhead, hfree⟩ := hslot rfl
    exact ⟨_, execFpCommit_next.mpr ⟨hport, hhead, hfree, rfl⟩⟩
  | fpHasdata => exact ⟨_, execFpHasdata_next.mpr ⟨hport, rfl⟩⟩
  | fpPeek => exact ⟨_, execFpPeek_next.mpr ⟨hport, hframe rfl, rfl⟩⟩
  | fpRdlen slot => exact ⟨_, execFpRdlen_next.mpr ⟨hport, of_decide_eq_true hoperands, rfl⟩⟩
  | fpReadb slot off =>
    simp only [Instr.WellFormed, Bool.and_eq_true, decide_eq_true_eq] at hoperands
    exact ⟨_, execFpReadb_next.mpr ⟨hport, hoperands, rfl⟩⟩
  | fpRelease => exact ⟨_, execFpRelease_next.mpr ⟨hport, hframe rfl, rfl⟩⟩
  | fpOvf => exact ⟨_, execFpOvf_next.mpr ⟨hport, rfl⟩⟩
  | fpReset => exact ⟨_, execFpReset_next.mpr ⟨hport, rfl⟩⟩

/-- `Cause s i f`: a command `i` in state `s` fails the guard that is answered with cause `f` (R150; `badHead` is log entry 11). -/
inductive Cause (s : State) : Instr → Fault → Prop where
  | wrongPort {i : Instr} (hport : s.port ≠ i.port) : Cause s i .wrongPort
  | badOperand {i : Instr} (hoperands : i.WellFormed s.cfg = false) : Cause s i .badIndex
  | badHead {i : Instr} (hi : writesHeadSlot i = true) (hhead : s.cfg.slots ≤ s.fp.head) : Cause s i .badIndex
  | noFreeSlot {i : Instr} (hi : writesHeadSlot i = true) (hfull : s.fp.freeCount = 0) : Cause s i .noFreeSlot
  | peekEmpty (hempty : s.fp.usedCount = 0) : Cause s .fpPeek .peekEmpty
  | releaseEmpty (hempty : s.fp.usedCount = 0) : Cause s .fpRelease .releaseEmpty

/-- A command completes or answers the cause of the first guard it fails, in the order of R152. -/
theorem exec_outcome (i : Instr) (s : State) : (∃ t, exec i s = .next t) ∨ ∃ f, exec i s = .fault f ∧ Cause s i f := by
  by_cases hport : s.port = i.port
  swap
  · exact .inr ⟨_, exec_wrongPort hport, .wrongPort hport⟩
  cases hoperands : i.WellFormed s.cfg with
  | false =>
    obtain ⟨hbad, -⟩ := badIndexExactly i s hport
    exact .inr ⟨_, hbad hoperands, .badOperand hoperands⟩
  | true =>
    by_cases hhead : writesHeadSlot i = true ∧ s.cfg.slots ≤ s.fp.head
    · obtain ⟨hi, hhead⟩ := hhead
      exact .inr ⟨_, (exec_eq_badIndex_of_writesHeadSlot hport hi).mpr (.inr hhead), .badHead hi hhead⟩
    rw [not_and, Nat.not_le] at hhead
    by_cases hfull : writesHeadSlot i = true ∧ s.fp.freeCount = 0
    · obtain ⟨hi, hfull⟩ := hfull
      exact .inr ⟨_, exec_noFreeSlot hi hport hoperands (hhead hi) hfull, .noFreeSlot hi hfull⟩
    rw [not_and] at hfull
    by_cases hempty : needsFrame i = true ∧ s.fp.usedCount = 0
    · obtain ⟨hi, hempty⟩ := hempty
      cases i with
      | fpPeek => exact .inr ⟨_, exec_fpPeek_empty hport hempty, .peekEmpty hempty⟩
      | fpRelease => exact .inr ⟨_, exec_fpRelease_empty hport hempty, .releaseEmpty hempty⟩
      | _ => cases hi
    rw [not_and] at hempty
    exact .inl (GuardsMet.exec_next ⟨hport, hoperands, fun hi => ⟨hhead hi, hfull hi⟩, hempty⟩)

/-- Settles O13, by `exec_outcome`. -/
theorem faultsOnlyAsListed : Obligations.FaultsOnlyAsListed := by
  intro i s
  obtain ⟨t, hnext⟩ | ⟨f, hfault, hcause⟩ := exec_outcome i s
  · rw [hnext]
    exact ⟨nofun, nofun⟩
  rw [hfault]
  refine ⟨nofun, fun f' hf => ?_⟩
  cases hf
  cases hcause with
  | wrongPort hport => exact .inl ⟨rfl, hport⟩
  | badOperand hoperands => exact .inr (.inl ⟨rfl, .inl hoperands⟩)
  | badHead hi hhead => exact .inr (.inl ⟨rfl, .inr ⟨hhead, writesHeadSlot_iff.mp hi⟩⟩)
  | noFreeSlot hi hfull => exact .inr (.inr (.inr (.inr ⟨rfl, hfull, writesHeadSlot_iff.mp hi⟩)))
  | peekEmpty hempty => exact .inr (.inr (.inl ⟨rfl, rfl, hempty⟩))
  | releaseEmpty hempty => exact .inr (.inr (.inr (.inl ⟨rfl, rfl, hempty⟩)))

/-! #### The block after a FAULT, and inside an open invocation (R144, R151, R154) -/

/-- The word of a FAULT response by its cause code (30_encoding.md R73). -/
theorem Fault.word_eq_or (f : Fault) : f.word = 0xF0000000#32 ||| BitVec.ofNat 32 f.code.toNat := by
  cases f <;> rfl

/-- Settles O14: a step that faults is followed by `answerFault`. -/
theorem faultAnswerChangesNothing : Obligations.FaultAnswerChangesNothing := by
  intro s p w rest f hinbox hfault
  rw [← Fault.word_eq_or]
  simp only [advance, hfault, State.answerFault, hinbox]

/-- A PF command at the front of the inbox has no move while an invocation is open (70_reset_and_hazards.md R187). -/
theorem step_insideRadioHandler {s : State} {w : Word} {rest : List Input} (hc : s.cfg.WellFormed) (hopen : s.radioOpen = true)
    (hinbox : s.inbox = .command .pf w :: rest) : step s = .refused .insideRadioHandler := by
  have hfetch : fetch s = .noMove .insideRadioHandler := by
    rw [fetch, if_pos hc, hinbox]
    exact if_pos ⟨rfl, hopen⟩
  rw [step, hfetch]

/-- Settles O9: a step that goes on would contradict `step_insideRadioHandler`. -/
theorem noForegroundInsideHandler : Obligations.NoForegroundInsideHandler := by
  refine ⟨fun s t hopen h p w rest hinbox => ?_, fun s w rest => step_insideRadioHandler⟩
  have hc : s.cfg.WellFormed := (step_next_cases h).1
  cases p with
  | pu => exact .inl rfl
  | pr => exact .inr rfl
  | pf => rw [step_insideRadioHandler hc hopen hinbox] at h; cases h

end Sys2Proof.Machine

/-! ### A correct host (60_exceptions.md R149, 70_reset_and_hazards.md R171, R172, R178, R180) -/

namespace Sys2Proof.Machine

/-! #### What the host learns from one answer -/

section
variable (d : HostDuty) (w : Word) (i : Instr)

theorem after_sliUp : (d.after w i).sliUp = true ↔ d.sliUp = true ∨ i = .sliInit := by
  cases i <;> simp [HostDuty.after]

theorem after_fpUp : (d.after w i).fpUp = true ↔ d.fpUp = true ∨ i = .fpInit ∨ i = .fpReset := by
  cases i <;> simp [HostDuty.after]

theorem after_data : (d.after w i).data = true ↔
    (d.data = true ∧ ¬(i = .fpInit ∨ i = .fpReset) ∧ i ≠ .fpRelease) ∨ (i = .fpHasdata ∧ w = okWord 1#8 0#16) := by
  cases i <;> simp [HostDuty.after]

/-- The host follows the invocation as `State.trackRadio` does (R144). -/
theorem after_inHandler : (d.after w i).inHandler =
    if i = .fpReserve then decide (w ≠ noneWord)
    else if i = .fpCommit false ∨ i = .fpCommit true then false
    else d.inHandler := by
  cases i with
  | fpCommit f => cases f <;> simp [HostDuty.after]
  | _ => simp [HostDuty.after]

end

@[simp] theorem trackRadio_lastAnswer (s : State) (i : Instr) : (s.trackRadio i).lastAnswer = s.lastAnswer := by
  simp [State.lastAnswer]

theorem okWord_ne_noneWord (ra : Byte) (rx : Half) : okWord ra rx ≠ noneWord := by
  intro h
  have hlt := okWord_toNat_lt ra rx
  rw [h] at hlt
  exact absurd hlt (by decide)

@[simp] theorem resultByte_okWord (ra : Byte) (rx : Half) : resultByte (okWord ra rx) = ra :=
  aField_packFields 0#8 ra rx

@[simp] theorem resultHalf_okWord (ra : Byte) (rx : Half) : resultHalf (okWord ra rx) = rx :=
  xField_packFields 0#8 ra rx

@[simp] theorem flag8_eq_one {b : Bool} : flag8 b = 1#8 ↔ b = true := by cases b <;> decide

/-- FP.RESERVE answers NONE exactly when no slot is free (41_frame_pool.md R111). -/
theorem fpReserve_lastAnswer {s t : State} (h : exec .fpReserve s = .next t) :
    t.lastAnswer ≠ noneWord ↔ t.fp.freeCount ≠ 0 := by
  obtain ⟨-, rfl⟩ := execFpReserve_next.mp h
  split_ifs with hfull
  · simp [answer_lastAnswer, hfull]
  · simp [answer_lastAnswer, hfull, okWord_ne_noneWord]

/-- An FP.HASDATA answered 1 saw a committed frame (41_frame_pool.md R115). -/
theorem usedCount_of_fpHasdata {s t : State} (h : exec .fpHasdata s = .next t) (hanswer : t.lastAnswer = okWord 1#8 0#16) :
    t.fp.usedCount ≠ 0 := by
  obtain ⟨-, rfl⟩ := execFpHasdata_next.mp h
  have hflag := congrArg resultByte hanswer
  simpa [answer_lastAnswer] using hflag

/-- Only FP.COMMIT 1 takes a free slot away. -/
theorem Effect.freeCount_ne_zero {s u : State} {i : Instr} (h : Effect s i u) (hslots : 1 ≤ s.cfg.slots)
    (hs : s.fp.freeCount ≠ 0) (hcommit : i ≠ .fpCommit true) : u.fp.freeCount ≠ 0 := by
  cases h with
  | poolEmptied => exact Nat.one_le_iff_ne_zero.mp hslots
  | frameCommitted => exact absurd rfl hcommit
  | frameReleased => exact Nat.succ_ne_zero _
  | _ => exact hs

/-! #### What the host knows stays true -/

section
variable {i : Instr} {s t : State}

/-- SLI.INIT establishes the framing invariant, and every other command keeps it. -/
theorem exec_framed (h : exec i s = .next t) (hc : s.cfg.WellFormed) (hs : Framed s ∨ i = .sliInit) : Framed t := by
  obtain hs | rfl := hs
  · obtain ⟨u, r, heff, rfl⟩ := exec_effect h
    exact (heff.framed hc.1 hs).of_sli_eq_but_ready rfl rfl
  · obtain ⟨hport, -⟩ := execSliInit_next.mp h
    obtain ⟨⟨t', h', hframed⟩, -⟩ := initEstablishesInvariants s hport hc
    rw [h] at h'
    cases h'
    exact hframed

/-- FP.INIT and FP.RESET establish the invariants of the pool, and every other command keeps them. -/
theorem exec_poolOk_windowCrc (h : exec i s = .next t) (hc : s.cfg.WellFormed)
    (hs : (PoolOk s ∧ WindowCrc s) ∨ i = .fpInit ∨ i = .fpReset) : PoolOk t ∧ WindowCrc t := by
  obtain ⟨u, r, heff, rfl⟩ := exec_effect h
  suffices hu : PoolOk u ∧ WindowCrc u from ⟨{ hu.1 with }, hu.2⟩
  obtain ⟨hpool, hcrc⟩ | hi := hs
  · exact ⟨heff.poolOk hpool, heff.windowCrc hpool hcrc⟩
  · obtain ⟨-, -, hslots, -⟩ := hc
    cases heff with
    | poolEmptied => exact ⟨emptyPool_poolOk hslots, windowCrc_of_unused rfl⟩
    | readOnly hread => obtain rfl | rfl := hi <;> cases hread
    | _ => obtain hi | hi := hi <;> cases hi

/-- The host's knowledge does not speak of the arrival of a command. -/
theorem Agrees.arrived {d : HostDuty} (hd : Agrees d s) (p : Port) (rest : List Input) :
    Agrees d { s with port := p, inbox := rest } :=
  { hd with
    sli := fun hup => (hd.sli hup).of_sli_eq_but_ready rfl rfl
    pool := fun hup => { hd.pool hup with } }

section
variable {d : HostDuty} (hd : Agrees d s) (hpermits : d.permits i = true) (h : exec i s = .next t)
include hd h

/-- The host and the model agree on which invocations are open (R144). -/
theorem Agrees.after_schedule : (t.trackRadio i).radioOpen = (d.after t.lastAnswer i).inHandler := by
  rw [trackRadio_eq, after_inHandler]
  dsimp only
  split_ifs with hreserve hcommit
  · subst hreserve
    exact decide_eq_decide.mpr (fpReserve_lastAnswer h).symm
  · rfl
  · obtain ⟨r, ht⟩ := exec_next_eq h
    rw [ht]
    exact hd.schedule

include hpermits

/-- A frame the host was told of is there until the host itself releases it or empties the pool (R178). -/
theorem Agrees.after_data (hdata : (d.after t.lastAnswer i).data = true) :
    (d.after t.lastAnswer i).fpUp = true ∧ t.fp.usedCount ≠ 0 := by
  rw [after_fpUp]
  obtain ⟨hold, hempty, hrelease⟩ | ⟨rfl, hanswer⟩ := (Machine.after_data ..).mp hdata
  · obtain ⟨hup, hused⟩ := hd.data hold
    obtain ⟨u, r, heff, rfl⟩ := exec_effect h
    exact ⟨.inl hup, heff.usedCount_ne_zero hused hempty hrelease⟩
  · exact ⟨.inl (Bool.and_eq_true_iff.mp hpermits).1, usedCount_of_fpHasdata h hanswer⟩

/-- The slot an invocation reserved is free until the invocation commits (R180). -/
theorem Agrees.after_handler (hopen : (d.after t.lastAnswer i).inHandler = true) :
    (d.after t.lastAnswer i).fpUp = true ∧ t.fp.freeCount ≠ 0 := by
  rw [after_fpUp]
  rw [after_inHandler] at hopen
  split_ifs at hopen with hreserve hcommit
  · subst hreserve
    exact ⟨.inl (Bool.and_eq_true_iff.mp hpermits).1, (fpReserve_lastAnswer h).mp (of_decide_eq_true hopen)⟩
  · obtain ⟨hup, hfree⟩ := hd.handler hopen
    have hslots : 1 ≤ s.cfg.slots := (hd.pool hup).slots
    obtain ⟨u, r, heff, rfl⟩ := exec_effect h
    exact ⟨.inl hup, heff.freeCount_ne_zero hslots hfree fun hi => hcommit (.inr hi)⟩

/-- What a correct host knows is true of the block after a command it may issue, too. -/
theorem Agrees.after : Agrees (d.after t.lastAnswer i) (t.trackRadio i) := by
  have hpoolCrc (hup : (d.after t.lastAnswer i).fpUp = true) : PoolOk t ∧ WindowCrc t :=
    exec_poolOk_windowCrc h hd.config (((after_fpUp ..).mp hup).imp_left fun hup => ⟨hd.pool hup, hd.crc hup⟩)
  refine ⟨?_, fun hup => ?_, fun hup => ?_, fun hup => ?_, fun hdata => ?_, fun hopen => ?_, hd.after_schedule h⟩
  · rw [trackRadio_cfg, exec_keeps_cfg h]
    exact hd.config
  · have hframed : Framed t := exec_framed h hd.config (((after_sliUp ..).mp hup).imp_left hd.sli)
    exact hframed.of_sli_eq_but_ready (trackRadio_cfg t i) (by rw [trackRadio_sli])
  · obtain ⟨hpool, -⟩ := hpoolCrc hup
    exact hpool.of_units_eq (trackRadio_cfg t i) (trackRadio_fp t i)
  · obtain ⟨-, hcrc⟩ := hpoolCrc hup
    exact hcrc.of_units_eq (trackRadio_cfg t i) (trackRadio_fp t i)
  · rw [trackRadio_fp]
    exact hd.after_data hpermits h hdata
  · rw [trackRadio_fp]
    exact hd.after_handler hpermits h hopen

end

/-- A correct host issues no command whose guards are not met (R178, R180), and keeps the schedule (R144). -/
theorem Agrees.guardsMet {d : HostDuty} (hd : Agrees d s) (hpermits : d.permits i = true) (hport : s.port = i.port)
    (hoperands : i.WellFormed s.cfg = true) : GuardsMet i s where
  port := hport
  operands := hoperands
  slot hi := by
    have hopen : d.inHandler = true := by
      cases i with
      | fpFillb | fpSetlen | fpCommit => exact hpermits
      | _ => cases hi
    obtain ⟨hup, hfree⟩ := hd.handler hopen
    exact ⟨(hd.pool hup).head_lt, hfree⟩
  frame hi := by
    have hdata : d.data = true := by
      cases i with
      | fpPeek | fpRelease => simp_all [HostDuty.permits]
      | _ => cases hi
    exact (hd.data hdata).2

/-- A correct host issues no PF command inside an invocation (R144). -/
theorem inHandler_of_permits_pf {d : HostDuty} (hpermits : d.permits i = true) (hport : i.port = .pf) : d.inHandler = false := by
  cases i <;> simp_all [HostDuty.permits, Instr.port]

/-- The step of a correct host's command. -/
theorem Agrees.step_next {d : HostDuty} {rest : List Input} (hd : Agrees d s) (hinbox : s.inbox = inputOf i :: rest)
    (hpermits : d.permits i = true) (hoperands : i.WellFormed s.cfg = true) :
    ∃ u, exec i { s with port := i.port, inbox := rest } = .next u ∧ step s = .next (u.trackRadio i) ∧
      (u.trackRadio i).inbox = rest ∧ Agrees (d.after u.lastAnswer i) (u.trackRadio i) := by
  have harrived := hd.arrived i.port rest
  obtain ⟨u, hexec⟩ := (harrived.guardsMet hpermits rfl hoperands).exec_next
  have hmove : ¬(i.port = .pf ∧ s.radioOpen = true) := by
    rintro ⟨hport, hopen⟩
    rw [hd.schedule, inHandler_of_permits_pf hpermits hport] at hopen
    cases hopen
  refine ⟨u, hexec, ?_, ?_, harrived.after hpermits hexec⟩
  · rw [step_inputOf hd.config hinbox hmove, hexec, settle]
  · obtain ⟨r, hu⟩ := exec_next_eq hexec
    rw [trackRadio_inbox, hu]

end

/-- Settles O58, by `Agrees.step_next`. -/
theorem dutifulCommandCompletes : Obligations.DutifulCommandCompletes := by
  intro d s i rest hd hinbox hpermits hoperands
  obtain ⟨u, -, hstep, hrest, hafter⟩ := hd.step_next hinbox hpermits hoperands
  exact ⟨_, hstep, hrest, (trackRadio_lastAnswer u i).symm ▸ hafter⟩

/-! #### Runs from power-on -/

/-- At power-on the host knows nothing, and no invocation is open. -/
theorem agrees_start {cfg : Config} (hc : cfg.WellFormed) (inbox : List Input) :
    Agrees HostDuty.start { State.powerOn cfg with inbox := inbox } where
  config := hc
  sli := nofun
  pool := nofun
  crc := nofun
  data := nofun
  handler := nofun
  schedule := rfl

theorem dutiful_of_empty {n : Nat} {d : HostDuty} {s : State} (hinbox : s.inbox = []) : Dutiful n d s := by
  cases n with
  | zero => trivial
  | succ n => simp [Dutiful, hinbox]

theorem Dutiful.run_next {n : Nat} {d : HostDuty} {s : State} (h : Dutiful n d s) (hd : Agrees d s) :
    ∃ t, run n s = .next t := by
  induction n generalizing d s with
  | zero => exact ⟨s, rfl⟩
  | succ n ih =>
    match hinbox : s.inbox with
    | [] =>
      rw [run_step (step_idle hd.config hinbox)]
      exact ih (dutiful_of_empty hinbox) hd
    | .radioReturn :: rest => simp [Dutiful, hinbox] at h
    | .command p w :: rest =>
      simp only [Dutiful, hinbox] at h
      obtain ⟨i, hdecode, rfl, hpermits, hoperands, hnext⟩ := h
      rw [← encode_of_decode hdecode] at hinbox
      obtain ⟨t, hstep, -, hafter⟩ := dutifulCommandCompletes d s i rest hd hinbox hpermits hoperands
      rw [run_step hstep]
      exact ih (hnext t hstep) hafter

/-- Settles O60, by `Dutiful.run_next`. -/
theorem dutifulRunNeverStops : Obligations.DutifulRunNeverStops :=
  fun _ inbox _ hc h => h.run_next (agrees_start hc inbox)

/-! #### The coordinator (R160 to R162) -/

theorem payloadFrom_knows {cfg : Config} {d : HostDuty} {slot : Byte} {off left : Nat} (hdata : d.data = true)
    (hslot : slot.toNat < cfg.slots) (hfit : off + left ≤ cfg.payloadBytes) : (Phase.payloadFrom slot off left).Knows cfg d := by
  unfold Phase.payloadFrom
  split_ifs with hdone
  · exact hdata
  · exact ⟨hdata, hslot, Nat.pos_of_ne_zero hdone, hfit⟩

theorem viewFrom_knows {cfg : Config} {d : HostDuty} {k : Byte} {off left : Nat} (hk : k.toNat ≤ 1)
    (hfit : off + left ≤ cfg.capacity) : (Phase.viewFrom k off left).Knows cfg d := by
  unfold Phase.viewFrom
  split_ifs with hdone
  · trivial
  · exact ⟨hk, Nat.pos_of_ne_zero hdone, hfit⟩

theorem zext8_toNat {n : Nat} (h : n < 256) : (zext8 n).toNat = n := Nat.mod_eq_of_lt h

theorem zext16_toNat {n : Nat} (h : n < 65536) : (zext16 n).toNat = n := Nat.mod_eq_of_lt h

/-- Wherever the loop stands, its next command is one a correct host may issue, with operands that exist. -/
theorem Phase.Knows.permits_wellFormed {c : Phase} {cfg : Config} {d : HostDuty} (h : c.Knows cfg d) (hc : cfg.WellFormed)
    (hsli : d.sliUp = true) (hfp : d.fpUp = true) (hopen : d.inHandler = false) :
    d.permits c.command = true ∧ c.command.WellFormed cfg = true := by
  obtain ⟨-, hcap, -, -, -, hpayload, -⟩ := hc
  cases c with
  | checkData | checkOverflow | resetPool | checkLine | resetLine => simp [Phase.command, HostDuty.permits, Instr.WellFormed, *]
  | peek | release =>
    have hdata : d.data = true := h
    simp [Phase.command, HostDuty.permits, Instr.WellFormed, *]
  | take =>
    have hready : d.ready = true := h
    simp [Phase.command, HostDuty.permits, Instr.WellFormed, *]
  | readFields slot =>
    obtain ⟨-, hslot⟩ := h
    simp [Phase.command, HostDuty.permits, Instr.WellFormed, *]
  | readPayload slot off left =>
    obtain ⟨-, hslot, hleft, hfit⟩ := h
    have hoff : (zext16 off).toNat < cfg.payloadBytes := by rw [zext16_toNat (by omega)]; omega
    simp [Phase.command, HostDuty.permits, Instr.WellFormed, *]
  | readView k off left =>
    obtain ⟨hk, hleft, hfit⟩ := h
    have hoff : (zext16 off).toNat < cfg.capacity := by rw [zext16_toNat (by omega)]; omega
    simp [Phase.command, HostDuty.permits, Instr.WellFormed, *]

/-- The length SLI.TAKE answers is at most C (10_state.md R23). -/
theorem SliOk.length_le_capacity {s : State} (hs : SliOk s) (hc : 3 ≤ s.cfg.capacity) (k : Buf) :
    s.completedLength k ≤ s.cfg.capacity := by
  have := hs.lengths k
  omega

/-- What the loop relies on where it goes on follows from the answer it got. -/
theorem Phase.Knows.after {c : Phase} {d : HostDuty} {s t : State} (h : c.Knows s.cfg d) (hd : Agrees d s) (hsli : d.sliUp = true)
    (hfp : d.fpUp = true) (hexec : exec c.command s = .next t) :
    (c.after s.cfg t.lastAnswer).Knows s.cfg (d.after t.lastAnswer c.command) := by
  cases c with
  | checkData =>
    obtain ⟨-, rfl⟩ := execFpHasdata_next.mp hexec
    rw [answer_lastAnswer, Phase.after]
    split_ifs with hflag
    · rw [resultByte_okWord] at hflag
      exact (after_data ..).mpr (.inr ⟨rfl, by rw [hflag]⟩)
    · trivial
  | peek =>
    obtain ⟨-, -, rfl⟩ := execFpPeek_next.mp hexec
    have htail := (hd.pool hfp).tail
    obtain ⟨-, -, -, hslots, -⟩ := hd.config
    rw [answer_lastAnswer, Phase.after, resultByte_okWord]
    exact ⟨h, by rwa [zext8_toNat (by omega)]⟩
  | readFields slot =>
    obtain ⟨hdata, hslot⟩ := h
    exact payloadFrom_knows hdata hslot (by omega)
  | readPayload slot off left =>
    obtain ⟨hdata, hslot, hleft, hfit⟩ := h
    exact payloadFrom_knows hdata hslot (by omega)
  | checkOverflow =>
    rw [Phase.after]
    split_ifs <;> trivial
  | checkLine =>
    obtain ⟨-, rfl⟩ := execSliHas_next.mp hexec
    rw [answer_lastAnswer, Phase.after]
    split_ifs with hflag
    · rw [resultByte_okWord] at hflag
      simp [Phase.Knows, Phase.command, HostDuty.after, hflag]
    · trivial
  | take =>
    obtain ⟨-, rfl⟩ := execSliTake_next.mp hexec
    obtain ⟨hcap, hcap', -⟩ := hd.config
    have hlen := (hd.sli hsli).ranges.length_le_capacity hcap s.sli.activeIndex.other
    rw [answer_lastAnswer, Phase.after, resultByte_okWord, resultHalf_okWord, zext16_toNat (by omega)]
    split_ifs
    · trivial
    · refine viewFrom_knows ?_ (by omega)
      cases s.sli.activeIndex <;> decide
  | readView k off left =>
    obtain ⟨hk, hleft, hfit⟩ := h
    exact viewFrom_knows hk (by omega)
  | release | resetPool | resetLine => trivial

/-- The host learns of frames and messages from the answers to its foreground only. -/
theorem after_of_handler (d : HostDuty) (w : Word) {i : Instr} (hi : i.port ≠ .pf) :
    (d.after w i).data = d.data ∧ (d.after w i).ready = d.ready := by
  cases i with
  | sliByte | fpReserve | fpFillb | fpSetlen | fpCommit => exact ⟨rfl, rfl⟩
  | _ => exact absurd rfl hi

/-- A handler's command leaves what the foreground knows of frames and messages as it is. -/
theorem Phase.Knows.after_handler {c : Phase} {cfg : Config} {d : HostDuty} (w : Word) {i : Instr} (hi : i.port ≠ .pf)
    (h : c.Knows cfg d) : c.Knows cfg (d.after w i) := by
  obtain ⟨hdata, hready⟩ := after_of_handler d w hi
  cases c with
  | peek | readFields | readPayload | release => simpa only [Phase.Knows, hdata] using h
  | take => simpa only [Phase.Knows, hready] using h
  | _ => exact h

/-- Settles O59: the coordinator's command is a correct host's (`permits_wellFormed`), its answer gives what the loop relies on next
(`Phase.Knows.after`), and a handler takes nothing of that away. -/
theorem coordinatorCommandCompletes : Obligations.CoordinatorCommandCompletes := by
  refine ⟨fun d s c rest hd hsli hfp hopen hknows hinbox => ?_, fun cfg d c w i hi h => h.after_handler w hi⟩
  obtain ⟨hpermits, hoperands⟩ := hknows.permits_wellFormed hd.config hsli hfp hopen
  obtain ⟨u, hexec, hstep, hrest, hafter⟩ := hd.step_next hinbox hpermits hoperands
  refine ⟨_, hstep, hrest, ?_⟩
  rw [trackRadio_lastAnswer, configurationIsFixed s _ hstep]
  exact ⟨hafter, Phase.Knows.after (s := { s with port := c.command.port, inbox := rest }) hknows (hd.arrived _ rest) hsli hfp hexec⟩

end Sys2Proof.Machine

/-! ### Nested handlers (60_exceptions.md R143, R154): a PU and a PR command commute -/

namespace Sys2Proof.Machine

theorem run_succ_eq_next {n : Nat} {s t : State} :
    run (n + 1) s = .next t ↔ ∃ u, step s = .next u ∧ run n u = .next t := by
  rw [run_succ]
  cases step s <;> simp

theorem port_of_exec_next {i : Instr} {s t : State} (h : exec i s = .next t) : s.port = i.port := by
  by_contra hport
  rw [exec_wrongPort hport] at h
  cases h

/-- A command word whose step goes on is that of a command of the port, which completes there. -/
theorem step_command_next {s t : State} {p : Port} {w : Word} {rest : List Input} (hinbox : s.inbox = .command p w :: rest)
    (h : step s = .next t) : ∃ i u, i.port = p ∧ encode i = w ∧
      exec i { s with port := p, inbox := rest } = .next u ∧ t = u.trackRadio i := by
  obtain ⟨-, ⟨hempty, -⟩ | ⟨rest', hreturn, -⟩ | ⟨p', w', rest', i, u, hcommand, -, hdecode, hexec, rfl⟩⟩ := step_next_cases h
  · rw [hinbox] at hempty; cases hempty
  · rw [hinbox] at hreturn; cases hreturn
  · rw [hinbox] at hcommand
    cases hcommand
    exact ⟨i, u, (port_of_exec_next hexec).symm, encode_of_decode hdecode, hexec, rfl⟩

/-- What SLI.BYTE makes of its unit depends on the parameters and the unit only. -/
theorem onByte_sli_congr (b : Byte) {s t : State} (hcfg : t.cfg = s.cfg) (hsli : t.sli = s.sli) :
    (onByte b t).sli = (onByte b s).sli := by
  obtain ⟨cfg, sli, _⟩ := s
  obtain ⟨cfg', sli', _⟩ := t
  cases hcfg
  cases hsli
  simp only [onByte]
  split_ifs
  · simp only [terminatorPath]
    cases sli.activeIndex <;> rfl
  · rfl
  · simp only [overlongPath]
    cases sli.activeIndex <;> rfl

/-- What a PR command makes of its unit, and its answer, depend on the parameters and the unit only. -/
theorem exec_pr_local {i : Instr} {s t : State} (hi : i.port = .pr) (h : exec i s = .next t) :
    ∃ r, ∀ s' : State, s'.cfg = s.cfg → s'.fp = s.fp → s'.port = .pr →
      exec i s' = .next { s' with fp := t.fp, answers := s'.answers ++ [(.pr, r)] } := by
  obtain ⟨cfg, _, fp, _⟩ := s
  cases i with
  | fpReserve =>
    obtain ⟨-, rfl⟩ := execFpReserve_next.mp h
    by_cases hfull : fp.freeCount = 0
    · refine ⟨noneWord, ?_⟩
      rintro ⟨_⟩ rfl rfl rfl
      rw [if_pos hfull]
      exact execFpReserve_next.mpr ⟨rfl, (if_pos hfull).symm⟩
    · refine ⟨okWord (zext8 fp.head) 0#16, ?_⟩
      rintro ⟨_⟩ rfl rfl rfl
      rw [if_neg hfull]
      exact execFpReserve_next.mpr ⟨rfl, (if_neg hfull).symm⟩
  | fpFillb v off =>
    obtain ⟨-, hop, hfree, rfl⟩ := execFpFillb_next.mp h
    refine ⟨okWord 0#8 0#16, ?_⟩
    rintro ⟨_⟩ rfl rfl rfl
    exact execFpFillb_next.mpr ⟨rfl, hop, hfree, rfl⟩
  | fpSetlen len =>
    obtain ⟨-, hop, hfree, rfl⟩ := execFpSetlen_next.mp h
    refine ⟨okWord 0#8 0#16, ?_⟩
    rintro ⟨_⟩ rfl rfl rfl
    exact execFpSetlen_next.mpr ⟨rfl, hop, hfree, rfl⟩
  | fpCommit f =>
    obtain ⟨-, hhead, hfree, rfl⟩ := execFpCommit_next.mp h
    refine ⟨okWord 0#8 0#16, ?_⟩
    rintro ⟨_⟩ rfl rfl rfl
    cases f <;> exact execFpCommit_next.mpr ⟨rfl, hhead, hfree, rfl⟩
  | _ => cases hi

/-- The step of a PR command reads the parameters, its unit and whether an invocation is open, and hands the line unit and the events
through. -/
theorem step_pr_local {i : Instr} {s t : State} (h : exec i s = .next t) (hi : i.port = .pr) (hc : s.cfg.WellFormed) :
    ∃ r isOpen, ∀ (s' : State) (rest : List Input), s'.cfg = s.cfg → s'.fp = s.fp → s'.radioOpen = s.radioOpen →
      s'.inbox = inputOf i :: rest → step s' = .next { s' with
        fp := t.fp, port := .pr, inbox := rest, answers := s'.answers ++ [(.pr, r)], radioOpen := isOpen } := by
  obtain ⟨r, hlocal⟩ := exec_pr_local hi h
  refine ⟨r, (State.trackRadio i { s with fp := t.fp }).radioOpen, fun s' rest hcfg hfp hopen hinbox => ?_⟩
  rw [step_pr_next (hcfg ▸ hc) hi hinbox (hlocal { s' with port := .pr, inbox := rest } hcfg hfp rfl)]
  simp only [trackRadio_eq, hopen]

theorem step_sliByte_sli {s : State} {b : Byte} {rest : List Input} (hc : s.cfg.WellFormed)
    (hinbox : s.inbox = inputOf (.sliByte b) :: rest) :
    step s = .next { s with
      sli := (onByte b s).sli, port := .pu, inbox := rest, answers := s.answers ++ [(.pu, okWord 0#8 0#16)] } := by
  rw [step_sliByte hc hinbox, onByte_eq]

/-- Settles O51: each of the two steps reads and writes what the other leaves alone (`onByte_sli_congr`, `step_pr_local`). -/
theorem handlersCommute : Obligations.HandlersCommute := by
  intro s t w1 w2 rest hinbox hrun
  obtain ⟨v, hstep1, hrun⟩ := run_succ_eq_next.mp hrun
  obtain ⟨t', hstep2, ht⟩ := run_succ_eq_next.mp hrun
  cases ht
  have hc : s.cfg.WellFormed := (step_next_cases hstep1).1
  obtain ⟨i1, -, hport1, rfl, -, -⟩ := step_command_next hinbox hstep1
  obtain ⟨b, rfl⟩ := port_eq_pu_iff.mp hport1
  rw [step_sliByte_sli hc hinbox, Host.Outcome.next.injEq] at hstep1
  have hinbox2 : v.inbox = .command .pr w2 :: rest := by rw [← hstep1]
  obtain ⟨i, u, hport, rfl, hexec, -⟩ := step_command_next hinbox2 hstep2
  have hinput : .command .pr (encode i) = inputOf i := by rw [inputOf, hport]
  rw [hinput] at hinbox2 ⊢
  obtain ⟨r, isOpen, hlocal⟩ := step_pr_local hexec hport (step_next_cases hstep2).1
  rw [hlocal v rest rfl rfl rfl hinbox2, Host.Outcome.next.injEq] at hstep2
  subst hstep1 hstep2
  have hfirst := hlocal { s with inbox := inputOf i :: inputOf (.sliByte b) :: rest } _ rfl rfl rfl rfl
  refine ⟨_, okWord 0#8 0#16, r, (run_step hfirst).trans (run_one (step_sliByte_sli hc rfl)), onByte_sli_congr b rfl rfl, rfl, rfl,
    rfl, rfl, List.append_assoc .., List.append_assoc ..⟩

end Sys2Proof.Machine
